-- ==== Sys2Proof/Word.lean ====
section
/-! DEFINITION. The byte, the unit of every message of the three ports (11_message_links, R155, R156). -/

namespace Sys2Proof

/-- One byte of a frame (R155: a character carries 8 data bits). -/
abbrev Byte := BitVec 8

/-- A list of exactly four like things: the four sections of the cell store (R3), the four selectable counters of an
arm (R164). -/
structure Four (α : Type) where
  f0 : α
  f1 : α
  f2 : α
  f3 : α
  deriving DecidableEq, Repr

end Sys2Proof
end

