-- ==== Sys2Proof/Syntax.lean ====
section
/-! DEFINITION. The commands of the guard: one constructor of Instr per row of spec/opcode_table.json, with the
operands the row's rule gives the event. A row of a request carries the tag and the payload bytes of its frame. -/

namespace Sys2Proof

/-- One of the two pick arms (00_scope.md, "arm"). -/
inductive Arm
  | A
  | B
  deriving DecidableEq, Repr

/-- One of the three serial ports (R155). -/
inductive Port
  | supervisor
  | arm (x : Arm)
  deriving DecidableEq, Repr

/-- The supply whose loss drops every permit line (R135). -/
inductive Supply
  /-- the logic supply falls below 2.9 V -/
  | logic
  /-- VPERM is absent -/
  | permit
  deriving DecidableEq, Repr

/-- One of an arm's three permit lines (R125). -/
inductive PermitName
  | speedOk
  | moveOk
  | powerOk
  deriving DecidableEq, Repr

/-- One character as a port's receiver sees it (R155, R157). -/
inductive Character
  /-- a whole character; `late` when the pause before it exceeded 0.2 ms -/
  | whole (byte : Byte) (late : Bool)
  /-- a character whose stop bit is not found -/
  | broken
  deriving DecidableEq, Repr

/-- The commands, in the order of spec/opcode_table.json. -/
inductive Instr
  /-- POWER_ON (R148): power is applied. -/
  | powerOn
  /-- INIT_END (R148): the last cell entry has been verified. -/
  | initEnd
  /-- POWER_LOSS (R135): the named supply is lost. -/
  | powerLoss (supply : Supply)
  /-- FRAME_BAD_CHECK (R157): the port receives these characters, a frame whose check differs. -/
  | frameBadCheck (port : Port) (chars : List Character)
  /-- FRAME_ABANDONED (R157): the port receives these characters, a frame that is abandoned. -/
  | frameAbandoned (port : Port) (chars : List Character)
  /-- SUPERVISOR_REQUEST_ARRIVAL (R159): a good frame of any kind arrives on the supervisor port. -/
  | supervisorRequestArrival (kind tag : Byte) (payload : List Byte)
  /-- TRANSMIT_END (R162): the frame the port is transmitting ends. -/
  | transmitEnd (port : Port)
  /-- CONFIGURE (R149), kind 0x01. -/
  | configure (tag : Byte) (payload : List Byte)
  /-- START (R151), kind 0x02. -/
  | start (tag : Byte) (payload : List Byte)
  /-- STOP (R152), kind 0x03. -/
  | stop (tag : Byte) (payload : List Byte)
  /-- RESTART (R154), kind 0x04. -/
  | restart (tag : Byte) (payload : List Byte)
  /-- FENCE (R15), kind 0x05. -/
  | fence (tag : Byte) (payload : List Byte)
  /-- UNFENCE (R16), kind 0x06. -/
  | unfence (tag : Byte) (payload : List Byte)
  /-- LOAD_PLAN (R106), kind 0x07. -/
  | loadPlan (tag : Byte) (payload : List Byte)
  /-- DROP_PLAN (R114), kind 0x08. -/
  | dropPlan (tag : Byte) (payload : List Byte)
  /-- DROP_PLAN naming LOADED (R115), kind 0x08 with choice 1. -/
  | dropPlanLoaded (tag : Byte) (armByte : Byte)
  /-- CLAIM_FOR (R69), kind 0x09. -/
  | claimFor (tag : Byte) (payload : List Byte)
  /-- REVOKE (R99), kind 0x0A. -/
  | revoke (tag : Byte) (payload : List Byte)
  /-- CLEAR_FAULTS (R131), kind 0x0B. -/
  | clearFaults (tag : Byte) (payload : List Byte)
  /-- GET_STATUS (R168), kind 0x0C. -/
  | getStatus (tag : Byte) (payload : List Byte)
  /-- GET_ROW (R169), kind 0x0D. -/
  | getRow (tag : Byte) (payload : List Byte)
  /-- SET_COUNTERS (R165), kind 0x0E. -/
  | setCounters (tag : Byte) (payload : List Byte)
  /-- GET_COUNTERS (R167), kind 0x0F. -/
  | getCounters (tag : Byte) (payload : List Byte)
  /-- SAMPLE (R22), kind 0x20 on an arm port. -/
  | sample (x : Arm) (tag : Byte) (payload : List Byte)
  /-- REQUEST (R67), kind 0x21 on an arm port. -/
  | request (x : Arm) (tag : Byte) (payload : List Byte)
  /-- SKIP (R113), kind 0x22 on an arm port. -/
  | skip (x : Arm) (tag : Byte) (payload : List Byte)
  /-- RELEASE (R93), kind 0x23 on an arm port. -/
  | release (x : Arm) (tag : Byte) (payload : List Byte)
  /-- GAP_TIMER_EXPIRY (R25) of one arm. -/
  | gapTimerExpiry (x : Arm)
  /-- AGING_TIMER_EXPIRY (R78) of one waiting claim. -/
  | agingTimerExpiry (x : Arm) (number : Byte)
  /-- TIMEOUT_TIMER_EXPIRY (R79) of one waiting claim. -/
  | timeoutTimerExpiry (x : Arm) (number : Byte)
  /-- SLOW_TIMER_EXPIRY (R128) of one arm. -/
  | slowTimerExpiry (x : Arm)
  /-- HOLD_TIMER_EXPIRY (R129) of one arm. -/
  | holdTimerExpiry (x : Arm)
  /-- LEAK_TIMER_EXPIRY (R142). -/
  | leakTimerExpiry
  /-- SCRUB_VISIT (R140). -/
  | scrubVisit
  /-- TIME_BASE_STEP (R84): one 0.1 ms step of the time base. -/
  | timeBaseStep
  /-- ARM_PORT_UNKNOWN_KIND (R158): a good frame of another kind arrives on an arm port. -/
  | armPortUnknownKind (x : Arm) (kind tag : Byte) (payload : List Byte)
  /-- PERMIT_LINE_SHORTED (R135): a given line is shorted to PGND, and overheats or not. -/
  | permitLineShorted (x : Arm) (line : PermitName) (overheats : Bool)
  deriving DecidableEq, Repr

end Sys2Proof
end

