-- ==== Sys2Proof/Decode.lean ====
section
/-! DEFINITION. The command a word spells by the bits of spec/opcode_table.json. No row of the table gives bits (every
row's "fields" is empty and none has "fixed"), so no word spells a command. The byte layouts of messages are decoded in
Machine/Receiver.lean (frames) and Machine/Operands.lean (payloads). -/

namespace Sys2Proof

/-- No row of spec/opcode_table.json gives bits: none, for every word. -/
def decodeTableWord (_nbits _w : Nat) : Option Instr := none

end Sys2Proof
end

