-- ==== Sys2Proof/Config.lean ====
section
/-! DEFINITION. The free values: what the spec leaves to the cell store's hardware (09_map_integrity R136, R147).
Log entry 2. -/

namespace Sys2Proof

/-- What one read of a cell entry through its check finds, or what one verify of a written entry finds
(R136: "Each read has one of four outcomes"). A verify fails exactly on `unholding` (R145, R147). -/
inductive Finding
  /-- the value is used as read -/
  | good
  /-- one damaged bit is found and put right -/
  | corrected
  /-- the damage is uncorrectable and the rebuilt entry reads back equal -/
  | rebuilt
  /-- the damage is uncorrectable and the rebuilt entry reads back different -/
  | unholding
  deriving DecidableEq, Repr, Inhabited

/-- What the n-th finding of the cell store is, where State.guard.findings does not say: a free value.
Nothing constrains it; a claim holds for every one of the four outcomes at every read. -/
opaque Config.finding : Nat → Finding

end Sys2Proof
end

