-- ==== Sys2Proof/Machine/Receiver.lean ====
section
/-! DEFINITION. The frame and its check (11_message_links R156), and one port's receiver (R155, R157). -/

namespace Sys2Proof.Machine

/-- A message: its kind, its tag and its payload (R156; sync, length and check are formed by `Frame.bytes`). -/
structure Frame where
  kind : Byte
  tag : Byte
  payload : List Byte
  deriving DecidableEq, Repr

/-- The six receive states of R157, each with what it has recorded of the frame. -/
inductive Receiver
  | hunt
  | length
  | kind (len : Byte)
  | tag (len kind : Byte)
  | payload (len kind tag : Byte) (got : List Byte)
  | check (len kind tag : Byte) (got : List Byte) (first : Option Byte)
  deriving DecidableEq, Repr

/-- What a character brings about at a receiver (R157). -/
inductive RxEvent
  | none
  | abandoned
  | badCheck
  | frame (f : Frame)
  deriving DecidableEq, Repr

/-- One bit of the check's division by x¹⁶ + x¹² + x⁵ + 1 (R156). -/
def crcShift (c : BitVec 16) : BitVec 16 :=
  if c.msb then (c <<< 1) ^^^ 0x1021#16 else c <<< 1

/-- `n` bits of the check. -/
def crcShifts : Nat → BitVec 16 → BitVec 16
  | 0, c => c
  | n + 1, c => crcShifts n (crcShift c)

/-- One byte into the check, most significant bit first, with no reflection (R156). -/
def crcByte (c : BitVec 16) (b : Byte) : BitVec 16 :=
  crcShifts 8 (c ^^^ ((b.setWidth 16) <<< 8))

/-- The check of R156: initial value 0xFFFF, no final inversion. -/
def crc16 (bytes : List Byte) : BitVec 16 := bytes.foldl crcByte 0xFFFF#16

/-- The check of a frame: over the length, kind and tag bytes and the payload, sync left out (R156). -/
def frameCheck (len kind tag : Byte) (payload : List Byte) : BitVec 16 :=
  crc16 (len :: kind :: tag :: payload)

/-- The sync byte (R156). -/
def syncByte : Byte := 0xC3#8

/-- The largest payload length (R156, R157). -/
def maxPayload : Nat := 248

/-- The kinds an arm port accepts as requests (R158). -/
def isArmKind (kind : Byte) : Bool := 0x20 ≤ kind.toNat && kind.toNat ≤ 0x23

/-- The characters of a frame on the line, in order (R156 and the frame table of 11.6). -/
def Frame.bytes (f : Frame) : List Byte :=
  let len := BitVec.ofNat 8 f.payload.length
  let check := frameCheck len f.kind f.tag f.payload
  syncByte :: len :: f.kind :: f.tag :: f.payload ++ [check.setWidth 8, (check >>> 8).setWidth 8]

/-- The receiver's table of R157, one whole character with no long pause before it. -/
def Receiver.acceptByte (r : Receiver) (b : Byte) : Receiver × RxEvent :=
  match r with
  | .hunt => if b = syncByte then (.length, .none) else (.hunt, .none)
  | .length => if b.toNat ≤ maxPayload then (.kind b, .none) else (.hunt, .abandoned)
  | .kind len => (.tag len b, .none)
  | .tag len k => if len = 0#8 then (.check len k b [] none, .none) else (.payload len k b [], .none)
  | .payload len k t got =>
    if got.length + 1 < len.toNat then (.payload len k t (got ++ [b]), .none)
    else (.check len k t (got ++ [b]) none, .none)
  | .check len k t got none => (.check len k t got (some b), .none)
  | .check len k t got (some lo) =>
    if (b ++ lo : BitVec 16) = frameCheck len k t got then (.hunt, .frame ⟨k, t, got⟩)
    else (.hunt, .badCheck)

/-- One character (R157): in a frame, a long pause before it or a broken stop bit abandons the frame; the character
that ended a pause is taken as the first in HUNT; in HUNT a broken character is ignored (R155). That a stalled frame is
abandoned and counted at that character, not when the pause passes 0.2 ms, is the model's choice (log entry 20). -/
def Receiver.accept (r : Receiver) (ch : Character) : Receiver × RxEvent :=
  match ch with
  | .broken => (.hunt, if r = .hunt then .none else .abandoned)
  | .whole b late =>
    if late && r ≠ .hunt then ((Receiver.hunt.acceptByte b).1, .abandoned) else r.acceptByte b

/-- A run of characters: the receiver after it, and what came about, in order. -/
def Receiver.run : Receiver → List Character → Receiver × List RxEvent
  | r, [] => (r, [])
  | r, ch :: chars =>
    let (r', e) := r.accept ch
    let (r'', es) := r'.run chars
    (r'', if e = .none then es else e :: es)

end Sys2Proof.Machine
end

