-- ==== Sys2Proof/Machine/State.lean ====
section
/-! DEFINITION. The state of the guard as plain data, and the state after power-on. Every item is named by the rule in
its docstring; INVENTORY.md lists them with their reset values. -/

namespace Sys2Proof.Machine

/-! ## Small kinds -/

/-- The device mode (R148). -/
inductive Mode
  | init
  | setup
  | guarding
  | draining
  deriving DecidableEq, Repr

/-- Where an arm stood at its last accepted sample (R27, R34). -/
inductive Zone
  | unknown
  | clear
  | inside
  deriving DecidableEq, Repr

/-- An action, and an arm's action level (R122), in rising order. -/
inductive Level
  | none
  | slow
  | hold
  | halt
  deriving DecidableEq, Repr

/-- The intake's gap state (R24, R25). -/
inductive GapState
  | disarmed
  | running
  | lapsed
  deriving DecidableEq, Repr

/-- The nine fault sources, in the order of the table of 8.2. -/
inductive Source
  | reach
  | intrusion
  | fenceEntry
  | sampleGap
  | sampleEarly
  | disagree
  | noPosition
  | revoked
  | escalated
  deriving DecidableEq, Repr

/-- The level that ESCALATED carries (8.1). -/
inductive Escalation
  | hold
  | halt
  deriving DecidableEq, Repr

/-- The events a selectable counter can count (the table of 12.1). -/
inductive CountEvent
  | samplesAccepted
  | samplesEarly
  | gaps
  | samplesLost
  | velocityClamped
  | grants
  | picks
  | skips
  | misses
  | waitTotal
  | waitOther
  | waitVacating
  | waitReserved
  | timeSlowOrAbove
  | cellsExcluded
  | off
  deriving DecidableEq, Repr

/-- A timer of the time base: the time at which it expires, or none when it is stopped (00_scope.md "Timers"). -/
abbrev Timer := Option Nat

/-! ## Positions and cells -/

/-- A position in units of 0.1 mm. -/
structure Position where
  x : Int
  y : Int
  z : Int
  deriving DecidableEq, Repr

/-- A velocity in mm/s. -/
structure Velocity where
  x : Int
  y : Int
  z : Int
  deriving DecidableEq, Repr

/-- One position sample as received (R19, R20). -/
structure Sample where
  sequence : Byte
  p1 : Position
  p2 : Option Position
  velocity : Velocity
  deriving DecidableEq, Repr

/-- A square of the grid, addressed as (column, row) (R1). -/
structure Cell where
  col : Nat
  row : Nat
  deriving DecidableEq, Repr

/-- A set of cells: no duplicates, in row-major order, so that equal sets are equal lists. -/
abbrev CellSet := List Cell

/-- A stopping box, edges included (R39). -/
structure Box where
  xlo : Int
  xhi : Int
  ylo : Int
  yhi : Int
  deriving DecidableEq, Repr

/-- A rectangle of cells, bounds included: a footprint that is not empty (R43). -/
structure Rect where
  colLo : Nat
  colHi : Nat
  rowLo : Nat
  rowHi : Nat
  deriving DecidableEq, Repr

/-- A shape by its fields (R8, R9, R10): bit c of `columns` is column c, bit i of `positions` the i-th of the four. -/
inductive Shape
  | rect (colLo colHi rowLo rowHi : Nat)
  | strip (row : Nat) (columns : BitVec 32)
  | quad (col row : Nat) (positions : BitVec 4)
  deriving DecidableEq, Repr

/-! ## The cell map (R2, R5) -/

/-- Why the guard's own fence is on a cell (1.3). -/
inductive FaultFence
  | none
  | retired
  | poisoned
  deriving DecidableEq, Repr

/-- The six state fields of a cell's entry (1.3). -/
structure Entry where
  owner : Option Arm
  vacating : Bool
  hostFence : Bool
  faultFence : FaultFence
  fencePending : Bool
  reservedFor : Option Arm
  deriving DecidableEq, Repr

/-- The 768 entries by address, 32 * row + column: addresses strictly rising, no entry equal to FREE, which is what an
unlisted address reads as (R2). -/
abbrev CellStore := List (Nat × Entry)

/-! ## The claim table (5.1) -/

inductive SlotIx
  | slot0
  | slot1
  deriving DecidableEq, Repr

/-- What made a claim (5.1). -/
inductive Origin
  | plan (slot : SlotIx) (entry : Nat)
  | supervisor
  deriving DecidableEq, Repr

inductive Phase
  | waiting
  | held
  deriving DecidableEq, Repr

/-- Whether a claim has begun reserving, and its seniority (R76). -/
inductive Reserving
  | no
  | junior
  | senior
  deriving DecidableEq, Repr

/-- One record of the claim table. `reserved` is the set of cells it has reserved (R76), `aging` and `timeout` its two
timers (R78, R79). -/
structure Claim where
  arm : Arm
  number : Byte
  origin : Origin
  shape : Shape
  effective : CellSet
  excluded : Nat
  base : Nat
  priority : Nat
  phase : Phase
  waitStart : Nat
  reserving : Reserving
  reserved : CellSet
  entered : Bool
  aging : Timer
  timeout : Timer
  deriving DecidableEq, Repr

/-- How a claim is named: an arm's claims in the table have different numbers (R65). -/
structure ClaimKey where
  arm : Arm
  number : Byte
  deriving DecidableEq, Repr

/-! ## Pick plans (7.1) -/

/-- One pick of a plan. -/
structure PlanEntry where
  shape : Shape
  priority : Nat
  pick : Option (Int × Int)
  deriving DecidableEq, Repr

inductive EndReason
  | complete
  | dropped
  deriving DecidableEq, Repr

/-- A plan in its slot (R104). -/
structure Plan where
  planId : Nat
  passes : Nat
  entries : List PlanEntry
  cursor : Nat
  passesCompleted : Nat
  issued : Nat
  picked : Nat
  skipped : Nat
  missed : Nat
  endReason : Option EndReason
  deriving DecidableEq, Repr

/-- A plan slot: a slot that is not EMPTY holds one plan (R104). -/
inductive Slot
  | empty
  | loaded (p : Plan)
  | active (p : Plan)
  | finishing (p : Plan)
  deriving DecidableEq, Repr

/-- The outcome of an issued entry (R111). -/
inductive EntryOutcome
  | picked
  | skipped
  | missed
  deriving DecidableEq, Repr

/-! ## One arm -/

/-- What one intake keeps (R19); its early and disagree items are held in `Sources`. -/
structure Intake where
  lastSample : Option Sample
  lastTime : Option Nat
  lastSequence : Option Byte
  gap : GapState
  gapTimer : Timer
  deriving DecidableEq, Repr

/-- What one footprint calculator keeps (R34). -/
structure Calculator where
  zone : Zone
  box : Option Box
  footprint : Option Rect
  lastSpeed : Nat
  deriving DecidableEq, Repr

/-- A verdict: any of the eight subsets of the three kinds (R49, R52). -/
structure Verdict where
  reach : Bool
  intrusion : Bool
  fenceEntry : Bool
  deriving DecidableEq, Repr

/-- The source states (8.1): latched or asserted when true; ESCALATED with the level it carries. -/
structure Sources where
  reach : Bool
  intrusion : Bool
  fenceEntry : Bool
  sampleGap : Bool
  sampleEarly : Bool
  disagree : Bool
  noPosition : Bool
  revoked : Bool
  escalated : Option Escalation
  deriving DecidableEq, Repr

/-- What a short to PGND does to a given line; under either the permit does not arrive at the arm (R135). -/
inductive LineShort
  | none
  /-- limited to 250 mA -/
  | limited
  /-- turned off while it overheats -/
  | off
  deriving DecidableEq, Repr

/-- One permit line (R125, R135). -/
structure PermitLine where
  given : Bool
  short : LineShort
  deriving DecidableEq, Repr

/-- An arm's three permit lines. -/
structure PermitLines where
  speedOk : PermitLine
  moveOk : PermitLine
  powerOk : PermitLine
  deriving DecidableEq, Repr

/-- What one action unit keeps (8.1). -/
structure ActionUnit where
  sources : Sources
  level : Level
  slowTimer : Timer
  holdTimer : Timer
  lines : PermitLines
  deriving DecidableEq, Repr

/-- A selectable counter (R164). -/
structure Counter where
  selection : CountEvent
  value : Nat
  deriving DecidableEq, Repr

/-- An arm's part of the counter bank (R164, R166). -/
structure ArmCounters where
  selectable : Four Counter
  waitOther : Nat
  waitVacating : Nat
  waitReserved : Nat
  discarded : Nat
  deriving DecidableEq, Repr

/-- Everything the guard keeps once per arm, its port apart. -/
structure ArmState where
  intake : Intake
  calculator : Calculator
  verdict : Verdict
  unit : ActionUnit
  vacate : CellSet
  slot0 : Slot
  slot1 : Slot
  nextNumber : Byte
  counters : ArmCounters
  deriving DecidableEq, Repr

/-! ## The configuration set (10.6) -/

/-- The six configurable actions of an arm (R121). -/
structure Actions where
  reach : Level
  intrusion : Level
  fenceEntry : Level
  sampleGap : Level
  sampleEarly : Level
  disagree : Level
  deriving DecidableEq, Repr

/-- The nine notify flags of an arm (R121). -/
structure NotifyFlags where
  reach : Bool
  intrusion : Bool
  fenceEntry : Bool
  sampleGap : Bool
  sampleEarly : Bool
  disagree : Bool
  noPosition : Bool
  revoked : Bool
  escalated : Bool
  deriving DecidableEq, Repr

/-- The per-arm parameters. -/
structure ArmConfig where
  radius : Nat
  tReact : Nat
  decel : Nat
  tMin : Nat
  tGap : Nat
  dTol : Nat
  dualRequired : Bool
  vSlow : Nat
  vStill : Nat
  tSlow : Nat
  tHold : Nat
  actions : Actions
  notify : NotifyFlags
  deriving DecidableEq, Repr

/-- The configuration set (R148, 10.6). -/
structure ConfigSet where
  nc : Nat
  nr : Nat
  pitch : Nat
  x0 : Int
  y0 : Int
  zEnter : Nat
  zHyst : Nat
  tAge : Nat
  tWaitMax : Nat
  scrubPeriod : Nat
  tLeak : Nat
  retireThreshold : Nat
  a : ArmConfig
  b : ArmConfig
  deriving DecidableEq, Repr

/-! ## The scrubber (chapter 9) -/

/-- One section of the store: whether it is retired, its error counter (R142), and its three device counters (R166). -/
structure SectionState where
  retired : Bool
  errors : Nat
  corrected : Nat
  uncorrectable : Nat
  poisonings : Nat
  deriving DecidableEq, Repr

/-- The scrub cursor (R140, R141): the position in the visit list, the pass's start time and period, and whether the
pass has begun (a pass takes the scrub_period in force at its start). -/
structure ScrubCursor where
  pos : Nat
  start : Nat
  period : Nat
  begun : Bool
  deriving DecidableEq, Repr

/-! ## Notices (chapter 11) -/

inductive ModeCause
  | powerOn
  | start
  | stop
  | drainEnd
  | restart
  deriving DecidableEq, Repr

/-- Who read a damaged entry (R146). -/
inductive Reader
  | monitor
  | arbiter
  | handover
  | scrub
  | report
  | fence
  deriving DecidableEq, Repr

/-- Why a cell was poisoned (R146). -/
inductive PoisonCause
  | read
  | flush
  | init
  | restart
  deriving DecidableEq, Repr

inductive BounceReason
  | timeout
  | empty
  deriving DecidableEq, Repr

/-- Whether a FAULT reports a raise or an assertion (R120). -/
inductive FaultChange
  | raised
  | asserted
  deriving DecidableEq, Repr

/-- What PLAN_END carries (R112). -/
structure PlanEnd where
  arm : Arm
  slot : SlotIx
  planId : Nat
  picked : Nat
  skipped : Nat
  missed : Nat
  reason : Option EndReason
  deriving DecidableEq, Repr

/-- The supervisor's notices. -/
inductive Notice
  | fault (x : Arm) (source : Source) (change : FaultChange) (action level : Level)
  | planEnd (e : PlanEnd)
  | mode (m : Mode) (cause : ModeCause)
  | mapError (cell : Cell) (reader : Reader) (verified : Bool) (errors : Nat)
  | poisoned (cell : Cell) (owner : Option Arm) (cause : PoisonCause)
  | retired (sec fenced pending revoked bounced : Nat)
  | flushed (sec revoked withdrawn poisoned : Nat)
  deriving DecidableEq, Repr

/-- The arms' notices. -/
inductive ArmNotice
  | granted (number : Byte) (origin : Origin) (planId : Nat) (pick : Option (Int × Int)) (cells excluded : Nat)
  | bounced (number : Byte) (origin : Origin) (reason : BounceReason)
  | withdrawn (number : Byte) (origin : Origin)
  | revoked (number : Byte) (origin : Origin)
  | planEnd (e : PlanEnd)
  deriving DecidableEq, Repr

/-! ## The links (chapter 11) -/

/-- A frame under transmission: its characters on the line, and whether it is a reply (R162). -/
structure Sending where
  reply : Bool
  bytes : List Byte
  deriving DecidableEq, Repr

/-- What every port has: receiver, transmitter and device counters (R157, R162, R166). -/
structure PortState where
  rx : Receiver
  tx : Option Sending
  badCheck : Nat
  abandoned : Nat
  overrun : Nat
  deriving DecidableEq, Repr

/-- A reply held in the refusal store, with how many queued requests arrived before it (R159). -/
structure HeldRefusal where
  reply : Frame
  ahead : Nat
  deriving DecidableEq, Repr

/-- The supervisor port (R159, R163). -/
structure SupervisorLink where
  port : PortState
  queue : List Frame
  slot : Option Frame
  refusals : List HeldRefusal
  notices : List Notice
  lost : Nat
  deriving DecidableEq, Repr

/-- An arm port (R160, R163). -/
structure ArmLink where
  port : PortState
  replies : List Frame
  notices : List ArmNotice
  lost : Nat
  deriving DecidableEq, Repr

/-- The link controller. -/
structure Link where
  sup : SupervisorLink
  a : ArmLink
  b : ArmLink
  deriving DecidableEq, Repr

/-! ## The whole -/

/-- Everything but the links and the queue of commands. `powered` is the logic supply, `permitSupply` VPERM, and `linesCut`
holds every permit line dropped after a supply loss, until power-on has ended INIT (R135). -/
structure Guard where
  mode : Mode
  now : Nat
  powered : Bool
  permitSupply : Bool
  linesCut : Bool
  cfg : ConfigSet
  a : ArmState
  b : ArmState
  claims : List Claim
  lastGranted : Arm
  fences : CellSet
  sections : Four SectionState
  poisoned : CellSet
  store : CellStore
  leakTimer : Timer
  scrub : ScrubCursor
  scrubPasses : Nat
  findings : List Finding
  reads : Nat
  deriving DecidableEq, Repr

/-- The machine: the guard, its links, and the commands that wait, first in, first out (the model's own field). -/
structure State where
  guard : Guard
  link : Link
  pending : List Instr
  deriving DecidableEq, Repr

/-- No rule of the spec stops the guard: it has no fault of this kind. Its "fault sources" (chapter 8) are state. -/
inductive Fault
  deriving DecidableEq, Repr

/-- Reasons for which the model gives a command no meaning. -/
inductive Refusal
  /-- raised by exec alone, for a row that has no meaning yet; safe, since no next state is claimed -/
  | notModelled (mnemonic : String)
  deriving DecidableEq, Repr

/-! ## Power-on (R148) -/

/-- The defaults of an arm's parameters (10.6, 8.2). -/
def ArmConfig.default : ArmConfig where
  radius := 300
  tReact := 80
  decel := 300
  tMin := 5
  tGap := 30
  dTol := 20
  dualRequired := true
  vSlow := 500
  vStill := 20
  tSlow := 2000
  tHold := 3000
  actions := ⟨.hold, .halt, .halt, .hold, .none, .slow⟩
  notify := ⟨true, true, true, true, true, true, true, true, true⟩

/-- The defaults of the configuration set (10.6). -/
def ConfigSet.default : ConfigSet where
  nc := 32
  nr := 24
  pitch := 200
  x0 := 0
  y0 := 0
  zEnter := 1500
  zHyst := 50
  tAge := 500
  tWaitMax := 0
  scrubPeriod := 100
  tLeak := 100
  retireThreshold := 16
  a := .default
  b := .default

/-- An intake with nothing received (R19). -/
def Intake.initial : Intake := ⟨none, none, none, .disarmed, none⟩

/-- A calculator with no sample (R34). -/
def Calculator.initial : Calculator := ⟨.unknown, none, none, 0⟩

/-- The empty verdict (R49). -/
def Verdict.empty : Verdict := ⟨false, false, false⟩

/-- The source states that power-on and RESTART set (R118). -/
def Sources.initial : Sources := ⟨false, false, false, false, false, false, true, false, none⟩

/-- A dropped permit line. -/
def PermitLine.dropped : PermitLine := ⟨false, .none⟩

/-- The action unit at power-on (R118, R148). -/
def ActionUnit.initial : ActionUnit where
  sources := .initial
  level := .halt
  slowTimer := none
  holdTimer := none
  lines := ⟨.dropped, .dropped, .dropped⟩

/-- An arm's counters at power-on (R164, R166). -/
def ArmCounters.initial : ArmCounters where
  selectable := ⟨⟨.off, 0⟩, ⟨.off, 0⟩, ⟨.off, 0⟩, ⟨.off, 0⟩⟩
  waitOther := 0
  waitVacating := 0
  waitReserved := 0
  discarded := 0

/-- One arm at power-on. -/
def ArmState.initial : ArmState where
  intake := .initial
  calculator := .initial
  verdict := .empty
  unit := .initial
  vacate := []
  slot0 := .empty
  slot1 := .empty
  nextNumber := 0#8
  counters := .initial

/-- A section at power-on (R142, R147, R166). -/
def SectionState.initial : SectionState := ⟨false, 0, 0, 0, 0⟩

/-- The guard at power-on, INIT begun (R148). The time base starts at 0 (log entry 1), no finding is foretold
(log entry 2), and the scrub cursor, which the rules give no value before INIT ends, stands at position 0 of a pass that has
not begun (log entry 40). -/
def Guard.initial : Guard where
  mode := .init
  now := 0
  powered := true
  permitSupply := true
  linesCut := true
  cfg := .default
  a := .initial
  b := .initial
  claims := []
  lastGranted := .B
  fences := []
  sections := ⟨.initial, .initial, .initial, .initial⟩
  poisoned := []
  store := []
  leakTimer := none
  scrub := ⟨0, 0, 0, false⟩
  scrubPasses := 0
  findings := []
  reads := 0

/-- A port at power-on (R157, R162). -/
def PortState.initial : PortState := ⟨.hunt, none, 0, 0, 0⟩

/-- An arm port at power-on (R160, R163). -/
def ArmLink.initial : ArmLink := ⟨.initial, [], [], 0⟩

/-- The links at power-on (R157, R159, R160, R163). -/
def Link.initial : Link where
  sup := ⟨.initial, [], none, [], [], 0⟩
  a := .initial
  b := .initial

/-- The machine right after power-on (R148). -/
def State.reset : State := ⟨.initial, .initial, []⟩

end Sys2Proof.Machine
end

