-- ==== Sys2Proof/Machine/Ops.lean ====
section
/-! DEFINITION. The named operations over the state: arms, cell sets, the grid, the cell map and its derivation from the
records (R1 to R7), timers, counters, the claim table, and the scratch record of one event. -/

namespace Sys2Proof

/-- "The other arm" (00_scope.md). -/
def Arm.other : Arm → Arm
  | .A => .B
  | .B => .A

/-- The i-th of four; an index above 3 names the last. -/
def Four.get {α : Type} (q : Four α) : Nat → α
  | 0 => q.f0
  | 1 => q.f1
  | 2 => q.f2
  | _ => q.f3

/-- The four with the i-th changed. -/
def Four.upd {α : Type} (q : Four α) (i : Nat) (f : α → α) : Four α :=
  match i with
  | 0 => { q with f0 := f q.f0 }
  | 1 => { q with f1 := f q.f1 }
  | 2 => { q with f2 := f q.f2 }
  | _ => { q with f3 := f q.f3 }

/-- All four changed. -/
def Four.map {α β : Type} (q : Four α) (f : α → β) : Four β := ⟨f q.f0, f q.f1, f q.f2, f q.f3⟩

/-- All four in order. -/
def Four.toList {α : Type} (q : Four α) : List α := [q.f0, q.f1, q.f2, q.f3]

end Sys2Proof

namespace Sys2Proof.Machine

/-! ## Access by arm -/

/-- The parameters of one arm. -/
def ConfigSet.arm (c : ConfigSet) : Arm → ArmConfig
  | .A => c.a
  | .B => c.b

/-- The configuration set with one arm's parameters changed. -/
def ConfigSet.onArm (c : ConfigSet) (x : Arm) (f : ArmConfig → ArmConfig) : ConfigSet :=
  match x with
  | .A => { c with a := f c.a }
  | .B => { c with b := f c.b }

/-- What the guard keeps for one arm. -/
def Guard.arm (g : Guard) : Arm → ArmState
  | .A => g.a
  | .B => g.b

/-- The guard with what it keeps for one arm changed. -/
def Guard.onArm (g : Guard) (x : Arm) (f : ArmState → ArmState) : Guard :=
  match x with
  | .A => { g with a := f g.a }
  | .B => { g with b := f g.b }

/-- The guard with one arm's action unit changed. -/
def Guard.onUnit (g : Guard) (x : Arm) (f : ActionUnit → ActionUnit) : Guard :=
  g.onArm x fun a => { a with unit := f a.unit }

/-- The guard with one arm's vacate set changed. -/
def Guard.onVacate (g : Guard) (x : Arm) (f : CellSet → CellSet) : Guard :=
  g.onArm x fun a => { a with vacate := f a.vacate }

/-- One of an arm's plan slots (R104). -/
def ArmState.slot (a : ArmState) : SlotIx → Slot
  | .slot0 => a.slot0
  | .slot1 => a.slot1

/-- An arm with one plan slot replaced. -/
def ArmState.setSlot (a : ArmState) (i : SlotIx) (s : Slot) : ArmState :=
  match i with
  | .slot0 => { a with slot0 := s }
  | .slot1 => { a with slot1 := s }

/-- The other slot of the same arm. -/
def SlotIx.other : SlotIx → SlotIx
  | .slot0 => .slot1
  | .slot1 => .slot0

/-- One arm's port. -/
def Link.arm (l : Link) : Arm → ArmLink
  | .A => l.a
  | .B => l.b

/-- The links with one arm's port changed. -/
def Link.onArm (l : Link) (x : Arm) (f : ArmLink → ArmLink) : Link :=
  match x with
  | .A => { l with a := f l.a }
  | .B => { l with b := f l.b }

/-! ## Numbers that stop at their largest value -/

/-- A 32-bit count that saturates (R164, R166). -/
def sat32 (n : Nat) : Nat := min n 4294967295

/-- A 16-bit count that saturates (R110, R163). -/
def sat16 (n : Nat) : Nat := min n 65535

/-- A timer started now with a duration (00_scope.md "Timers"). -/
def Guard.timerFor (g : Guard) (duration : Nat) : Timer := some (g.now + duration)

/-- A timer is due when it runs and its duration has passed on the time base. -/
def Guard.due (g : Guard) : Timer → Bool
  | some t => t ≤ g.now
  | none => false

/-! ## Cell sets -/

/-- The address of a cell's entry in the store (R2). -/
def Cell.index (c : Cell) : Nat := 32 * c.row + c.col

/-- Row-major order (00_scope.md "Cell order"). -/
def Cell.before (c d : Cell) : Bool := c.row < d.row || (c.row == d.row && c.col < d.col)

/-- The set with one cell added. -/
def addCell (c : Cell) : CellSet → CellSet
  | [] => [c]
  | d :: ds => if c = d then d :: ds else if c.before d then c :: d :: ds else d :: addCell c ds

/-- The cells in either set. -/
def unionCells (a b : CellSet) : CellSet := b.foldl (fun s c => addCell c s) a

/-- The cells of the first set that are not in the second. -/
def minusCells (a b : CellSet) : CellSet := a.filter fun c => c ∉ b

/-- The set without one cell. -/
def dropCell (a : CellSet) (c : Cell) : CellSet := a.filter fun d => d ≠ c

/-- Whether two sets share a cell. -/
def meets (a b : CellSet) : Bool := a.any fun c => c ∈ b

/-! ## The grid and its sections (R1, R3) -/

/-- The column of R1: the division is floored, since pitch is positive. -/
def ConfigSet.columnOf (c : ConfigSet) (x : Int) : Int := (x - c.x0) / (c.pitch : Int)

/-- The row of R1. -/
def ConfigSet.rowOf (c : ConfigSet) (y : Int) : Int := (y - c.y0) / (c.pitch : Int)

/-- A cell of the grid (R2). -/
def ConfigSet.inGrid (c : ConfigSet) (k : Cell) : Bool := k.col < c.nc && k.row < c.nr

/-- The cell of a point, or none when the point is off the grid (R1). -/
def ConfigSet.cellAt (c : ConfigSet) (x y : Int) : Option Cell :=
  let col := c.columnOf x
  let row := c.rowOf y
  if 0 ≤ col ∧ col < c.nc ∧ 0 ≤ row ∧ row < c.nr then some ⟨col.toNat, row.toNat⟩ else none

/-- The cells (c, r) with c and r below the bounds and chosen by `keep`, in row-major order. -/
def cellsWhere (nc nr : Nat) (keepRow : Nat → Bool) (keepCol : Nat → Nat → Bool) : CellSet :=
  (List.range nr).flatMap fun r =>
    if keepRow r then ((List.range nc).filter fun c => keepCol c r).map fun c => ⟨c, r⟩ else []

/-- Every cell of the grid. -/
def ConfigSet.gridCells (c : ConfigSet) : CellSet := cellsWhere c.nc c.nr (fun _ => true) fun _ _ => true

/-- Every cell of the store (R2). -/
def storeCells : CellSet := cellsWhere 32 24 (fun _ => true) fun _ _ => true

/-- The cells of a footprint, in row-major order (R43). -/
def Rect.cells (f : Rect) : CellSet :=
  cellsWhere (f.colHi + 1) (f.rowHi + 1) (fun r => f.rowLo ≤ r) fun c _ => f.colLo ≤ c

/-- Whether a footprint covers a cell (R43). -/
def Rect.covers (f : Rect) (c : Cell) : Bool :=
  f.colLo ≤ c.col && c.col ≤ f.colHi && f.rowLo ≤ c.row && c.row ≤ f.rowHi

/-- Whether a footprint that may be empty covers a cell. -/
def covered (f : Option Rect) (c : Cell) : Bool :=
  match f with
  | some r => r.covers c
  | none => false

/-- The section of a cell (R3). -/
def Cell.sec (c : Cell) : Nat := c.col / 8

/-- A section with a column inside the grid (R3). -/
def ConfigSet.configured (c : ConfigSet) (s : Nat) : Bool := 8 * s < c.nc

/-- Whether a section is retired (R3, R139). -/
def Guard.isRetired (g : Guard) (s : Nat) : Bool := (g.sections.get s).retired

/-- A section that is configured and has not been retired (R3). -/
def Guard.isActive (g : Guard) (s : Nat) : Bool := g.cfg.configured s && !g.isRetired s

/-- The sections of the store. -/
def sectionNumbers : List Nat := [0, 1, 2, 3]

/-- The grid cells of one section. -/
def Guard.sectionCells (g : Guard) (s : Nat) : CellSet := g.cfg.gridCells.filter fun c => c.sec = s

/-! ## The cell store (R2) -/

/-- The FREE value (R2). -/
def Entry.free : Entry := ⟨none, false, false, .none, false, none⟩

/-- The entry at an address; an unlisted address reads FREE. -/
def storeRead (m : CellStore) (i : Nat) : Entry :=
  match m with
  | [] => .free
  | (k, e) :: rest => if k = i then e else storeRead rest i

/-- The store with the entry at an address written; the listed form stays canonical. -/
def storeWrite (m : CellStore) (i : Nat) (e : Entry) : CellStore :=
  match m with
  | [] => if e = .free then [] else [(i, e)]
  | (k, d) :: rest =>
    if i < k then (if e = .free then (k, d) :: rest else (i, e) :: (k, d) :: rest)
    else if i = k then (if e = .free then rest else (i, e) :: rest)
    else (k, d) :: storeWrite rest i e

/-- The addresses of a listed store rise strictly from `low` up. -/
def risingFrom (low : Nat) : CellStore → Bool
  | [] => true
  | (k, _) :: rest => low ≤ k && risingFrom (k + 1) rest

/-- The canonical form: addresses strictly rising, no entry equal to FREE. -/
def storeWf (m : CellStore) : Bool := risingFrom 0 m && m.all fun p => decide (p.2 ≠ Entry.free)

/-- The entry of a cell as the store holds it. -/
def Guard.entryOf (g : Guard) (c : Cell) : Entry := storeRead g.store c.index

/-! ## The records and the entry they give (R5) -/

/-- The name of a claim. -/
def Claim.key (c : Claim) : ClaimKey := ⟨c.arm, c.number⟩

/-- A HELD claim. -/
def Claim.isHeld (c : Claim) : Bool := c.phase = .held

/-- A WAITING claim. -/
def Claim.isWaiting (c : Claim) : Bool := c.phase = .waiting

/-- A PLAN claim. -/
def Claim.isPlan (c : Claim) : Bool :=
  match c.origin with
  | .plan _ _ => true
  | .supervisor => false

/-- The cell is in the effective set of a HELD claim of the arm. -/
def Guard.heldBy (g : Guard) (x : Arm) (c : Cell) : Bool :=
  g.claims.any fun k => k.isHeld && k.arm = x && c ∈ k.effective

/-- The cell is held by or vacating for the arm (00_scope.md "owned"). -/
def Guard.ownedBy (g : Guard) (x : Arm) (c : Cell) : Bool := g.heldBy x c || c ∈ (g.arm x).vacate

/-- The owner of R5. -/
def Guard.ownerOf (g : Guard) (c : Cell) : Option Arm :=
  if g.ownedBy .A c then some .A else if g.ownedBy .B c then some .B else none

/-- The arm whose reserving claim has the cell among its reservations (R5). -/
def Guard.reservedFor (g : Guard) (c : Cell) : Option Arm :=
  (g.claims.find? fun k => c ∈ k.reserved).map fun k => k.arm

/-- The cell is in the fence layer or lies in a retired section: what makes a fence pending, or in effect when the
cell is let go (R5, R17). -/
def Guard.fencedByRecord (g : Guard) (c : Cell) : Bool := c ∈ g.fences || g.isRetired c.sec

/-- The value of a cell's entry derived from the records: the table of R5 for a cell of the grid; FREE, or the
poisoned encoding, outside it (R2, R139). -/
def Guard.derive (g : Guard) (c : Cell) : Entry :=
  if g.cfg.inGrid c then
    let owner := g.ownerOf c
    { owner := owner
      vacating := match owner with
        | some x => c ∈ (g.arm x).vacate
        | none => false
      hostFence := owner.isNone && c ∈ g.fences
      faultFence :=
        if c ∈ g.poisoned then .poisoned
        else if g.isRetired c.sec && owner.isNone then .retired else .none
      fencePending := owner.isSome && g.fencedByRecord c
      reservedFor := g.reservedFor c }
  else if c ∈ g.poisoned then { Entry.free with faultFence := .poisoned }
  else .free

/-- The entry of one cell written with what the records give (R6). -/
def Guard.reindexCell (g : Guard) (c : Cell) : Guard :=
  { g with store := storeWrite g.store c.index (g.derive c) }

/-- The entries of some cells written with what the records give: the change of the index that goes with a change of
the records (R6). -/
def Guard.reindex (g : Guard) (cells : CellSet) : Guard := cells.foldl Guard.reindexCell g

/-! ## Named cell states (R7) -/

/-- FREE (R7). -/
def Entry.isFree (e : Entry) : Bool := e.owner.isNone && !e.hostFence && e.faultFence = .none

/-- FENCED (R7). -/
def Entry.isFenced (e : Entry) : Bool := e.owner.isNone && (e.hostFence || e.faultFence ≠ .none)

/-- Left out of an effective set: host-fenced, fault-fenced or fence-pending (R12). -/
def Entry.isExcluded (e : Entry) : Bool := e.hostFence || e.faultFence ≠ .none || e.fencePending

/-! ## The claim table -/

/-- The claim of that name. -/
def Guard.claim? (g : Guard) (k : ClaimKey) : Option Claim := g.claims.find? fun c => c.key = k

/-- The table with the claim of that name changed. -/
def Guard.onClaim (g : Guard) (k : ClaimKey) (f : Claim → Claim) : Guard :=
  { g with claims := g.claims.map fun c => if c.key = k then f c else c }

/-- The table without the claim of that name. -/
def Guard.removeClaim (g : Guard) (k : ClaimKey) : Guard :=
  { g with claims := g.claims.filter fun c => c.key ≠ k }

/-- How many claims an arm has in the table (R63). -/
def Guard.claimCount (g : Guard) (x : Arm) : Nat := (g.claims.filter fun c => c.arm = x).length

/-- How many HELD claims an arm has (R31). -/
def Guard.heldCount (g : Guard) (x : Arm) : Nat := (g.claims.filter fun c => c.isHeld && c.arm = x).length

/-- The arm's eligible claim: of its WAITING claims the one created first (R70). The table is kept in the order of
creation. -/
def Guard.eligible (g : Guard) (x : Arm) : Option Claim :=
  g.claims.find? fun c => c.isWaiting && c.arm = x

/-- Whether a PLAN claim is in the table (R153). -/
def Guard.hasPlanClaim (g : Guard) : Bool := g.claims.any Claim.isPlan

/-! ## Counters (R164) -/

/-- One counter at an event signalled with an amount. -/
def Counter.signal (e : CountEvent) (n : Nat) (k : Counter) : Counter :=
  if k.selection = e then { k with value := sat32 (k.value + n) } else k

/-- An event of an arm signalled to the counter bank with an amount (R164). -/
def Guard.signal (g : Guard) (x : Arm) (e : CountEvent) (n : Nat) : Guard :=
  g.onArm x fun a => { a with counters := { a.counters with selectable := a.counters.selectable.map (Counter.signal e n) } }

/-- A section's state changed. -/
def Guard.onSection (g : Guard) (s : Nat) (f : SectionState → SectionState) : Guard :=
  { g with sections := g.sections.upd s f }

/-! ## One event -/

/-- A notice on its way to a queue, in the order of posting; `emptyArmQueues` is RESTART's emptying of the two arm
notice queues (R163). -/
inductive Posted
  | toHost (n : Notice)
  | toArm (x : Arm) (n : ArmNotice)
  | emptyArmQueues
  deriving DecidableEq, Repr

/-- A change of a fault source that posts a FAULT notice once the level is computed (R120). -/
structure SourceChange where
  arm : Arm
  source : Source
  change : FaultChange
  deriving DecidableEq, Repr

/-- The guard in the course of one event, with what the event has yet to do at its end. None of this is state: an
event is whole. -/
structure Event where
  guard : Guard
  /-- notices posted so far, oldest first -/
  out : List Posted
  /-- MAP_ERROR and POISONED held back until the event's reply is formed (R137) -/
  late : List Posted
  /-- whether that reply is formed -/
  replied : Bool
  /-- sections whose error counter has reached the threshold, in that order (R143) -/
  reached : List Nat
  /-- cells that joined or left the fence layer or the fault-fence set since waiting claims were last formed (R13) -/
  touched : CellSet
  /-- claims formed anew (R72) -/
  reformed : List ClaimKey
  /-- whether the event calls for an evaluation (R71) -/
  evaluate : Bool
  /-- changes of sources whose FAULT is still to be posted (R120) -/
  changes : List SourceChange
  /-- slots that went FINISHING, then those that lost a claim in the order of the losses (R112) -/
  judged : List (Arm × SlotIx)
  /-- whether a PLAN claim left the table (R153) -/
  planLeft : Bool
  deriving DecidableEq, Repr

/-- The start of an event. -/
def Guard.event (g : Guard) : Event := ⟨g, [], [], false, [], [], [], false, [], [], false⟩

/-- The event with its guard changed. -/
def Event.onGuard (ev : Event) (f : Guard → Guard) : Event := { ev with guard := f ev.guard }

/-- A notice posted. -/
def Event.post (ev : Event) (p : Posted) : Event := { ev with out := ev.out ++ [p] }

/-- A MAP_ERROR or POISONED of a read: after the reply, in the order of the reads (R137). -/
def Event.postRead (ev : Event) (n : Notice) : Event :=
  if ev.replied then ev.post (.toHost n) else { ev with late := ev.late ++ [.toHost n] }

/-- The event calls for an evaluation when `b` holds (R71). -/
def Event.callEvaluation (ev : Event) (b : Bool) : Event := { ev with evaluate := ev.evaluate || b }

/-- An event signalled to the counter bank. -/
def Event.signal (ev : Event) (x : Arm) (e : CountEvent) (n : Nat) : Event := ev.onGuard fun g => g.signal x e n

end Sys2Proof.Machine
end

