-- ==== Sys2Proof/Machine/Operands.lean ====
section
/-! DEFINITION. Every operand form: the payload layouts of requests, the shapes and parameters they name, and the codes
and layouts of replies and notices (11_message_links 11.5, 11.6; R8 to R11; 10.6). -/

namespace Sys2Proof.Machine

/-! ## Bytes -/

/-- The byte at an offset, as a number. -/
def u8 (p : List Byte) (i : Nat) : Nat := (p.getD i 0#8).toNat

/-- Two bytes at an offset, little-endian. -/
def u16 (p : List Byte) (i : Nat) : Nat := u8 p i + 256 * u8 p (i + 1)

/-- A signed 16-bit value at an offset. -/
def s16 (p : List Byte) (i : Nat) : Int :=
  if u16 p i < 32768 then (u16 p i : Int) else (u16 p i : Int) - 65536

/-- Four bytes at an offset, little-endian. -/
def u32 (p : List Byte) (i : Nat) : Nat := u16 p i + 65536 * u16 p (i + 2)

/-- A signed 32-bit value at an offset. -/
def s32 (p : List Byte) (i : Nat) : Int :=
  if u32 p i < 2147483648 then (u32 p i : Int) else (u32 p i : Int) - 4294967296

/-- One byte of a number. -/
def byte (n : Nat) : Byte := BitVec.ofNat 8 n

/-- A number as two bytes, least significant first. -/
def le16 (n : Nat) : List Byte := [byte n, byte (n / 256)]

/-- A number as four bytes, least significant first. -/
def le32 (n : Nat) : List Byte := le16 n ++ le16 (n / 65536)

/-- A signed value as two bytes. -/
def les16 (v : Int) : List Byte := le16 (v % 65536).toNat

/-- A signed value as four bytes. -/
def les32 (v : Int) : List Byte := le32 (v % 4294967296).toNat

/-- A flag as bit `i` of a byte. -/
def flagBit (b : Bool) (i : Nat) : Nat := if b then 2 ^ i else 0

/-! ## Arms and shapes -/

/-- An arm byte: 0 for A, 1 for B, nothing else (11.5). -/
def armOf : Nat → Option Arm
  | 0 => some .A
  | 1 => some .B
  | _ => none

/-- The arm's code. -/
def armCode : Arm → Nat
  | .A => 0
  | .B => 1

/-- A shape from its kind and its six shape bytes (11.6); none for a kind that is not RECT, STRIP or QUAD (R11). Bits 4..7
of a QUAD's selection byte have no effect (log entry 36). -/
def parseShape (kind : Nat) (body : List Byte) : Option Shape :=
  match kind with
  | 1 => some (.rect (u8 body 0) (u8 body 1) (u8 body 2) (u8 body 3))
  | 2 => some (.strip (u8 body 0) (BitVec.ofNat 32 (u32 body 1)))
  | 3 => some (.quad (u8 body 0) (u8 body 1) (BitVec.ofNat 4 (u8 body 2)))
  | _ => none

/-- Whether a shape is valid on a grid: R8, R9, R10. -/
def Shape.valid (s : Shape) (nc nr : Nat) : Bool :=
  match s with
  | .rect cLo cHi rLo rHi => cLo ≤ cHi && cHi < nc && rLo ≤ rHi && rHi < nr
  | .strip r columns =>
    r < nr && columns ≠ 0#32 && (List.range 32).all fun c => !columns.getLsbD c || c < nc
  | .quad c r positions => c + 2 ≤ nc && r + 2 ≤ nr && positions ≠ 0#4

/-- Whether a shape has cells in a row. -/
def Shape.hasRow (s : Shape) (r : Nat) : Bool :=
  match s with
  | .rect _ _ rLo rHi => rLo ≤ r && r ≤ rHi
  | .strip row _ => r = row
  | .quad _ row _ => r = row || r = row + 1

/-- Whether a shape selects the cell (c, r): R8, R9, R10. -/
def Shape.has (s : Shape) (c r : Nat) : Bool :=
  match s with
  | .rect cLo cHi rLo rHi => cLo ≤ c && c ≤ cHi && rLo ≤ r && r ≤ rHi
  | .strip row columns => r = row && columns.getLsbD c
  | .quad col row positions =>
    (c = col && r = row && positions.getLsbD 0) || (c = col + 1 && r = row && positions.getLsbD 1) ||
    (c = col && r = row + 1 && positions.getLsbD 2) || (c = col + 1 && r = row + 1 && positions.getLsbD 3)

/-- The cell set of a shape on the grid in force; cells outside that grid are left out (R11). -/
def Shape.cells (s : Shape) (cfg : ConfigSet) : CellSet :=
  cellsWhere cfg.nc cfg.nr s.hasRow fun c r => s.has c r

/-- A request's shape at an offset of its payload, when R11 accepts it on the grid in force. -/
def shapeAt (cfg : ConfigSet) (p : List Byte) (i : Nat) : Option Shape :=
  (parseShape (u8 p i) (p.drop (i + 1))).filter fun s => s.valid cfg.nc cfg.nr

/-! ## Samples -/

/-- A position at an offset. -/
def positionAt (p : List Byte) (i : Nat) : Position := ⟨s16 p i, s16 p (i + 2), s16 p (i + 4)⟩

/-- Bit 0 of the flags byte: p2 is present (11.6). -/
def sampleHasP2 (p : List Byte) : Bool := (p.getD 1 0#8).getLsbD 0

/-- R20: 14 bytes without p2, 20 with it. -/
def sampleLengthOk (p : List Byte) : Bool := p.length = (if sampleHasP2 p then 20 else 14)

/-- The sample layout of 11.6. -/
def parseSample (p : List Byte) : Sample :=
  let v := if sampleHasP2 p then 14 else 8
  { sequence := p.getD 0 0#8
    p1 := positionAt p 2
    p2 := if sampleHasP2 p then some (positionAt p 8) else none
    velocity := ⟨s16 p v, s16 p (v + 2), s16 p (v + 4)⟩ }

/-! ## Plans -/

/-- The length of one plan entry (11.6). -/
def planEntryLength : Nat := 12

/-- One plan entry of 12 bytes, or none when its shape kind is not known; the priority is the value carried, 0..15. -/
def parsePlanEntry (e : List Byte) : Option PlanEntry :=
  (parseShape (u8 e 0) (e.drop 2)).map fun s =>
    { shape := s
      priority := u8 e 1 % 16
      pick := if (e.getD 1 0#8).getLsbD 7 then some (s16 e 8, s16 e 10) else none }

/-- R106 test 2: the shape by R11, and a pick point in a cell of the shape. -/
def PlanEntry.valid (e : PlanEntry) (cfg : ConfigSet) : Bool :=
  e.shape.valid cfg.nc cfg.nr &&
  match e.pick with
  | none => true
  | some (x, y) =>
    match cfg.cellAt x y with
    | none => false
    | some c => e.shape.has c.col c.row

/-- The entries of a LOAD_PLAN payload, tested in load order: the valid entries, or the index of the first that is
not valid (R106). -/
def parsePlanEntries (cfg : ConfigSet) (p : List Byte) : Nat → Nat → Except Nat (List PlanEntry)
  | 0, _ => .ok []
  | n + 1, i =>
    match (parsePlanEntry (p.drop (5 + planEntryLength * i))).filter fun e => e.valid cfg with
    | none => .error i
    | some e =>
      match parsePlanEntries cfg p n (i + 1) with
      | .ok es => .ok (e :: es)
      | .error j => .error j

/-- The slot choice of LOAD_PLAN (7.2). -/
inductive SlotChoice
  | named (i : SlotIx)
  | auto
  deriving DecidableEq, Repr

/-- The slot choice's code (11.6). -/
def slotChoiceOf : Nat → Option SlotChoice
  | 0 => some (.named .slot0)
  | 1 => some (.named .slot1)
  | 2 => some .auto
  | _ => none

/-! ## Configuration parameters (10.6, 11.6) -/

/-- The common parameters. -/
inductive CommonParam
  | nc
  | nr
  | pitch
  | x0
  | y0
  | zEnter
  | zHyst
  | tAge
  | tWaitMax
  | scrubPeriod
  | tLeak
  | retireThreshold
  deriving DecidableEq, Repr

/-- The per-arm parameters; `action` takes the first six sources alone. -/
inductive ArmParam
  | radius
  | tReact
  | decel
  | tMin
  | tGap
  | dTol
  | dualRequired
  | vSlow
  | vStill
  | tSlow
  | tHold
  | action (s : Source)
  | notify (s : Source)
  deriving DecidableEq, Repr

/-- A parameter as an item names it. -/
inductive Param
  | common (p : CommonParam)
  | perArm (p : ArmParam)
  deriving DecidableEq, Repr

/-- The sources in the order of their codes (11.6). -/
def sourceList : List Source :=
  [.reach, .intrusion, .fenceEntry, .sampleGap, .sampleEarly, .disagree, .noPosition, .revoked, .escalated]

/-- The parameter identifiers of 11.6. -/
def paramOf : Nat → Option Param
  | 1 => some (.common .nc)
  | 2 => some (.common .nr)
  | 3 => some (.common .pitch)
  | 4 => some (.common .x0)
  | 5 => some (.common .y0)
  | 6 => some (.common .zEnter)
  | 7 => some (.common .zHyst)
  | 8 => some (.common .tAge)
  | 9 => some (.common .tWaitMax)
  | 10 => some (.common .scrubPeriod)
  | 11 => some (.common .tLeak)
  | 12 => some (.common .retireThreshold)
  | 16 => some (.perArm .radius)
  | 17 => some (.perArm .tReact)
  | 18 => some (.perArm .decel)
  | 19 => some (.perArm .tMin)
  | 20 => some (.perArm .tGap)
  | 21 => some (.perArm .dTol)
  | 22 => some (.perArm .dualRequired)
  | 23 => some (.perArm .vSlow)
  | 24 => some (.perArm .vStill)
  | 25 => some (.perArm .tSlow)
  | 26 => some (.perArm .tHold)
  | 32 => some (.perArm (.action .reach))
  | 33 => some (.perArm (.action .intrusion))
  | 34 => some (.perArm (.action .fenceEntry))
  | 35 => some (.perArm (.action .sampleGap))
  | 36 => some (.perArm (.action .sampleEarly))
  | 37 => some (.perArm (.action .disagree))
  | 48 => some (.perArm (.notify .reach))
  | 49 => some (.perArm (.notify .intrusion))
  | 50 => some (.perArm (.notify .fenceEntry))
  | 51 => some (.perArm (.notify .sampleGap))
  | 52 => some (.perArm (.notify .sampleEarly))
  | 53 => some (.perArm (.notify .disagree))
  | 54 => some (.perArm (.notify .noPosition))
  | 55 => some (.perArm (.notify .revoked))
  | 56 => some (.perArm (.notify .escalated))
  | _ => none

/-- The range of a common parameter (10.6). -/
def CommonParam.range : CommonParam → Int × Int
  | .nc => (1, 32)
  | .nr => (1, 24)
  | .pitch => (40, 640)
  | .x0 => (-32768, 32767)
  | .y0 => (-32768, 32767)
  | .zEnter => (0, 32767)
  | .zHyst => (0, 1000)
  | .tAge => (1, 10000)
  | .tWaitMax => (0, 65535)
  | .scrubPeriod => (10, 1000)
  | .tLeak => (1, 1000)
  | .retireThreshold => (1, 63)

/-- The range of a per-arm parameter (10.6); actions are NONE 0 to HALT 3, flags off 0 and on 1 (10.2). -/
def ArmParam.range : ArmParam → Int × Int
  | .radius => (0, 2000)
  | .tReact => (0, 500)
  | .decel => (10, 1000)
  | .tMin => (1, 1000)
  | .tGap => (2, 2000)
  | .dTol => (0, 1000)
  | .dualRequired => (0, 1)
  | .vSlow => (0, 10000)
  | .vStill => (0, 1000)
  | .tSlow => (1, 5000)
  | .tHold => (1, 5000)
  | .action _ => (0, 3)
  | .notify _ => (0, 1)

/-- The range of a parameter. -/
def Param.range : Param → Int × Int
  | .common p => p.range
  | .perArm p => p.range

/-- A value below the range raised to its lowest, one above it lowered to its highest (R149 step 2). -/
def Param.clamp (p : Param) (v : Int) : Int := max p.range.1 (min p.range.2 v)

/-- The action of a code 0..3. -/
def levelOfCode (v : Int) : Level :=
  if v ≤ 0 then .none else if v = 1 then .slow else if v = 2 then .hold else .halt

/-- A common parameter stored; the value is within its range. -/
def ConfigSet.putCommon (c : ConfigSet) (p : CommonParam) (v : Int) : ConfigSet :=
  match p with
  | .nc => { c with nc := v.toNat }
  | .nr => { c with nr := v.toNat }
  | .pitch => { c with pitch := v.toNat }
  | .x0 => { c with x0 := v }
  | .y0 => { c with y0 := v }
  | .zEnter => { c with zEnter := v.toNat }
  | .zHyst => { c with zHyst := v.toNat }
  | .tAge => { c with tAge := v.toNat }
  | .tWaitMax => { c with tWaitMax := v.toNat }
  | .scrubPeriod => { c with scrubPeriod := v.toNat }
  | .tLeak => { c with tLeak := v.toNat }
  | .retireThreshold => { c with retireThreshold := v.toNat }

/-- One of the six actions replaced; the other three sources have none (R121). -/
def Actions.put (a : Actions) (s : Source) (l : Level) : Actions :=
  match s with
  | .reach => { a with reach := l }
  | .intrusion => { a with intrusion := l }
  | .fenceEntry => { a with fenceEntry := l }
  | .sampleGap => { a with sampleGap := l }
  | .sampleEarly => { a with sampleEarly := l }
  | .disagree => { a with disagree := l }
  | .noPosition => a
  | .revoked => a
  | .escalated => a

/-- One notify flag replaced. -/
def NotifyFlags.put (n : NotifyFlags) (s : Source) (b : Bool) : NotifyFlags :=
  match s with
  | .reach => { n with reach := b }
  | .intrusion => { n with intrusion := b }
  | .fenceEntry => { n with fenceEntry := b }
  | .sampleGap => { n with sampleGap := b }
  | .sampleEarly => { n with sampleEarly := b }
  | .disagree => { n with disagree := b }
  | .noPosition => { n with noPosition := b }
  | .revoked => { n with revoked := b }
  | .escalated => { n with escalated := b }

/-- A per-arm parameter stored. -/
def ArmConfig.put (c : ArmConfig) (p : ArmParam) (v : Int) : ArmConfig :=
  match p with
  | .radius => { c with radius := v.toNat }
  | .tReact => { c with tReact := v.toNat }
  | .decel => { c with decel := v.toNat }
  | .tMin => { c with tMin := v.toNat }
  | .tGap => { c with tGap := v.toNat }
  | .dTol => { c with dTol := v.toNat }
  | .dualRequired => { c with dualRequired := v = 1 }
  | .vSlow => { c with vSlow := v.toNat }
  | .vStill => { c with vStill := v.toNat }
  | .tSlow => { c with tSlow := v.toNat }
  | .tHold => { c with tHold := v.toNat }
  | .action s => { c with actions := c.actions.put s (levelOfCode v) }
  | .notify s => { c with notify := c.notify.put s (v = 1) }

/-- One item of CONFIGURE as carried. -/
structure RawItem where
  ident : Nat
  armByte : Nat
  value : Int
  deriving DecidableEq, Repr

/-- The items of a CONFIGURE payload, six bytes each (11.6). -/
def parseItems (p : List Byte) : List RawItem :=
  (List.range (p.length / 6)).map fun i => ⟨u8 p (6 * i), u8 p (6 * i + 1), s32 p (6 * i + 2)⟩

/-- What an item names: the parameter, and for a per-arm one the arm; none for an unknown parameter or arm. -/
def RawItem.target (r : RawItem) : Option (Param × Option Arm) :=
  match paramOf r.ident with
  | none => none
  | some (.common p) => some (.common p, none)
  | some (.perArm p) => (armOf r.armByte).map fun x => (.perArm p, some x)

/-- The value of an item, clamped (R149 step 2). -/
def RawItem.stored (r : RawItem) : Int :=
  match paramOf r.ident with
  | none => r.value
  | some p => p.clamp r.value

/-- The index of the first item that fails test 1 of R149: an unknown parameter or arm, or a parameter named before
(for the same arm, if it is per arm). -/
def firstBadItem (seen : List (Param × Option Arm)) (i : Nat) : List RawItem → Option Nat
  | [] => none
  | r :: rest =>
    match r.target with
    | none => some i
    | some t => if t ∈ seen then some i else firstBadItem (t :: seen) (i + 1) rest

/-- The configuration set with one item applied. -/
def ConfigSet.apply (c : ConfigSet) (r : RawItem) : ConfigSet :=
  match r.target with
  | none => c
  | some (.common p, _) => c.putCommon p r.stored
  | some (.perArm p, some x) => c.onArm x fun a => a.put p r.stored
  | some (.perArm _, none) => c

/-- Whether two configuration sets differ in the grid geometry (R18). -/
def ConfigSet.sameGeometry (c d : ConfigSet) : Bool :=
  c.nc = d.nc && c.nr = d.nr && c.pitch = d.pitch && c.x0 = d.x0 && c.y0 = d.y0

/-! ## Payload lengths (11.5) -/

/-- Whether a supervisor request's payload has the length of its kind. -/
def supervisorLengthOk (kind : Nat) (p : List Byte) : Bool :=
  match kind with
  | 0x01 => p.length % 6 = 0 && p.length / 6 ≤ 41
  | 0x05 => p.length = 7
  | 0x06 => p.length = 7
  | 0x07 => 5 ≤ p.length && p.length = 5 + planEntryLength * u8 p 4
  | 0x08 => p.length = 2
  | 0x09 => p.length = 8
  | 0x0A => p.length = 1
  | 0x0B => p.length = 3
  | 0x0D => p.length = 1
  | 0x0E => p.length = 5
  | _ => p.length = 0

/-! ## Codes (11.6) -/

/-- The result codes of R161. -/
inductive Result
  | ok
  | wrongMode
  | notReady
  | range
  | badLength
  | unknownKind
  | slotActive
  | slotFinishing
  | noPlan
  | noRoom
  | empty
  | stopped
  | notFound
  | invalidConfig
  | claimsPresent
  deriving DecidableEq, Repr

def Result.code : Result → Nat
  | .ok => 0
  | .wrongMode => 1
  | .notReady => 2
  | .range => 3
  | .badLength => 4
  | .unknownKind => 5
  | .slotActive => 6
  | .slotFinishing => 7
  | .noPlan => 8
  | .noRoom => 9
  | .empty => 10
  | .stopped => 11
  | .notFound => 12
  | .invalidConfig => 13
  | .claimsPresent => 14

/-- The checks named by INVALID_CONFIG (R151, 11.6). -/
inductive StartCheck
  | xExtent
  | yExtent
  | windowA
  | windowB
  | sections
  deriving DecidableEq, Repr

def StartCheck.code : StartCheck → Nat
  | .xExtent => 1
  | .yExtent => 2
  | .windowA => 3
  | .windowB => 4
  | .sections => 5

def Mode.code : Mode → Nat
  | .init => 0
  | .setup => 1
  | .guarding => 2
  | .draining => 3

def Zone.code : Zone → Nat
  | .unknown => 0
  | .clear => 1
  | .inside => 2

def Level.code : Level → Nat
  | .none => 0
  | .slow => 1
  | .hold => 2
  | .halt => 3

def Source.code : Source → Nat
  | .reach => 0
  | .intrusion => 1
  | .fenceEntry => 2
  | .sampleGap => 3
  | .sampleEarly => 4
  | .disagree => 5
  | .noPosition => 6
  | .revoked => 7
  | .escalated => 8

def Escalation.level : Escalation → Level
  | .hold => .hold
  | .halt => .halt

def SlotIx.code : SlotIx → Nat
  | .slot0 => 0
  | .slot1 => 1

def EndReason.code : EndReason → Nat
  | .complete => 1
  | .dropped => 2

def ModeCause.code : ModeCause → Nat
  | .powerOn => 0
  | .start => 1
  | .stop => 2
  | .drainEnd => 3
  | .restart => 4

def Reader.code : Reader → Nat
  | .monitor => 0
  | .arbiter => 1
  | .handover => 2
  | .scrub => 3
  | .report => 4
  | .fence => 5

def PoisonCause.code : PoisonCause → Nat
  | .read => 0
  | .flush => 1
  | .init => 2
  | .restart => 3

def BounceReason.code : BounceReason → Nat
  | .timeout => 0
  | .empty => 1

def FaultChange.code : FaultChange → Nat
  | .raised => 0
  | .asserted => 1

/-- Owners are NONE 0, A 1 and B 2. -/
def ownerCode : Option Arm → Nat
  | none => 0
  | some .A => 1
  | some .B => 2

def Origin.code : Origin → Nat
  | .plan _ _ => 0
  | .supervisor => 1

/-- The entry index of an origin, 0 for a SUPERVISOR claim. -/
def Origin.entryIndex : Origin → Nat
  | .plan _ i => i
  | .supervisor => 0

def CountEvent.code : CountEvent → Nat
  | .samplesAccepted => 0
  | .samplesEarly => 1
  | .gaps => 2
  | .samplesLost => 3
  | .velocityClamped => 4
  | .grants => 5
  | .picks => 6
  | .skips => 7
  | .misses => 8
  | .waitTotal => 9
  | .waitOther => 10
  | .waitVacating => 11
  | .waitReserved => 12
  | .timeSlowOrAbove => 13
  | .cellsExcluded => 14
  | .off => 15

/-- The event of a number 0..15 (12.1). -/
def countEventOf : Nat → Option CountEvent
  | 0 => some .samplesAccepted
  | 1 => some .samplesEarly
  | 2 => some .gaps
  | 3 => some .samplesLost
  | 4 => some .velocityClamped
  | 5 => some .grants
  | 6 => some .picks
  | 7 => some .skips
  | 8 => some .misses
  | 9 => some .waitTotal
  | 10 => some .waitOther
  | 11 => some .waitVacating
  | 12 => some .waitReserved
  | 13 => some .timeSlowOrAbove
  | 14 => some .cellsExcluded
  | 15 => some .off
  | _ => none

/-- A verdict's bits (the ECHO table of 11.6). -/
def Verdict.code (v : Verdict) : Nat := flagBit v.reach 0 + flagBit v.intrusion 1 + flagBit v.fenceEntry 2

/-- The cell code of GET_ROW (11.6, R169). -/
def Entry.code (e : Entry) : Nat :=
  (if e.isFree then 0 else if e.isFenced then 3 else if e.vacating then 2 else 1)
    + flagBit (e.owner = some .B) 2 + flagBit e.fencePending 3
    + 16 * ownerCode e.reservedFor + flagBit e.hostFence 6 + flagBit (e.faultFence ≠ .none) 7

/-! ## Replies -/

/-- What a service answers: the result and the payload after it (R161). -/
structure Reply where
  result : Result
  rest : List Byte
  deriving DecidableEq, Repr

/-- The payload of a reply: the result code first (R161). -/
def Reply.payload (r : Reply) : List Byte := byte r.result.code :: r.rest

/-- The reply OK with its further bytes. -/
def Reply.ok (rest : List Byte) : Reply := ⟨.ok, rest⟩

/-- A refusal that carries its result code alone. -/
def Reply.refuse (r : Result) : Reply := ⟨r, []⟩

/-- A refusal with one further item (R161). -/
def Reply.refuseWith (r : Result) (item : Nat) : Reply := ⟨r, [byte item]⟩

/-- The kind of a reply: the request's plus 0x80 (R161). -/
def replyKind (kind : Byte) : Byte := kind + 0x80#8

/-- The supervisor's and the arms' notice kinds, 0x40..0x46 and 0x60..0x64 (11.5). -/
def isNoticeKind (kind : Byte) : Bool :=
  (0x40 ≤ kind.toNat && kind.toNat ≤ 0x46) || (0x60 ≤ kind.toNat && kind.toNat ≤ 0x64)

/-- The kind of an UNKNOWN_KIND reply (R158). -/
def unknownReplyKind (kind : Byte) : Byte :=
  if isNoticeKind (replyKind kind) then 0x7F#8 else replyKind kind

/-- The frame of a reply to a request (R161). -/
def replyFrame (kind tag : Byte) (r : Reply) : Frame := ⟨replyKind kind, tag, r.payload⟩

/-- The frame that answers UNKNOWN_KIND (R158). -/
def unknownKindFrame (kind tag : Byte) : Frame :=
  ⟨unknownReplyKind kind, tag, (Reply.refuse .unknownKind).payload⟩

/-! ## Notices (the notice table of 11.6) -/

def PlanEnd.payload (e : PlanEnd) : List Byte :=
  [byte (armCode e.arm), byte e.slot.code] ++ le16 e.planId ++ le16 e.picked ++ le16 e.skipped ++ le16 e.missed
    ++ [byte (match e.reason with | some r => r.code | none => 0)]

def Cell.payload (c : Cell) : List Byte := [byte c.col, byte c.row]

/-- A supervisor notice as a frame; a notice carries the tag 0 (R156). -/
def Notice.frame : Notice → Frame
  | .fault x src ch act lvl =>
    ⟨0x40#8, 0#8, [byte (armCode x), byte src.code, byte ch.code, byte act.code, byte lvl.code]⟩
  | .planEnd e => ⟨0x41#8, 0#8, e.payload⟩
  | .mode m cause => ⟨0x42#8, 0#8, [byte m.code, byte cause.code]⟩
  | .mapError c reader verified errors =>
    ⟨0x43#8, 0#8, c.payload ++ [byte c.sec, byte reader.code, byte (if verified then 0 else 1), byte errors]⟩
  | .poisoned c owner cause => ⟨0x44#8, 0#8, c.payload ++ [byte c.sec, byte (ownerCode owner), byte cause.code]⟩
  | .retired s nFenced nPending nRevoked nBounced =>
    ⟨0x45#8, 0#8, [byte s] ++ le16 nFenced ++ le16 nPending ++ [byte nRevoked, byte nBounced]⟩
  | .flushed s nRevoked nWithdrawn nPoisoned =>
    ⟨0x46#8, 0#8, [byte s, byte nRevoked, byte nWithdrawn] ++ le16 nPoisoned⟩

/-- The middle of GRANTED, offsets 2 to 9: entry index, plan id and pick point; 0 for a SUPERVISOR claim. -/
def grantedPlanBytes (o : Origin) (planId : Nat) (pick : Option (Int × Int)) : List Byte :=
  match o with
  | .supervisor => [0#8, 0#8, 0#8, 0#8, 0#8, 0#8, 0#8, 0#8]
  | .plan _ i =>
    [byte i] ++ le16 planId ++
    match pick with
    | some (x, y) => [1#8] ++ les16 x ++ les16 y
    | none => [0#8, 0#8, 0#8, 0#8, 0#8]

/-- An arm notice as a frame (11.6). -/
def ArmNotice.frame : ArmNotice → Frame
  | .granted n o planId pick cells excluded =>
    ⟨0x60#8, 0#8, [n, byte o.code] ++ grantedPlanBytes o planId pick ++ le16 cells ++ le16 excluded⟩
  | .bounced n o reason => ⟨0x61#8, 0#8, [n, byte o.code, byte o.entryIndex, byte reason.code]⟩
  | .withdrawn n o => ⟨0x62#8, 0#8, [n, byte o.code, byte o.entryIndex]⟩
  | .revoked n o => ⟨0x63#8, 0#8, [n, byte o.code, byte o.entryIndex]⟩
  | .planEnd e => ⟨0x64#8, 0#8, e.payload⟩

end Sys2Proof.Machine
end

