-- ==== Sys2Proof/Machine/Flags.lean ====
section
/-! DEFINITION. The flag computations of chapter 8: fault sources, the action level they give (R122), the permit lines
that follow it (R125), the clearing conditions (R132); and the source selections of messages. -/

namespace Sys2Proof.Machine

/-! ## Levels -/

/-- NONE, then SLOW, then HOLD, then HALT (R122). -/
def Level.higher (a b : Level) : Level := if a.code < b.code then b else a

/-- HOLD or HALT. -/
def Level.atLeastHold (l : Level) : Bool := 2 ≤ l.code

/-! ## Sources -/

/-- Whether a source is latched or asserted. -/
def Sources.has (s : Sources) : Source → Bool
  | .reach => s.reach
  | .intrusion => s.intrusion
  | .fenceEntry => s.fenceEntry
  | .sampleGap => s.sampleGap
  | .sampleEarly => s.sampleEarly
  | .disagree => s.disagree
  | .noPosition => s.noPosition
  | .revoked => s.revoked
  | .escalated => s.escalated.isSome

/-- A source latched or asserted, or cleared or removed; ESCALATED is latched by `Event.escalate` alone, with its
level, and is only cleared here. -/
def Sources.put (s : Sources) (src : Source) (b : Bool) : Sources :=
  match src with
  | .reach => { s with reach := b }
  | .intrusion => { s with intrusion := b }
  | .fenceEntry => { s with fenceEntry := b }
  | .sampleGap => { s with sampleGap := b }
  | .sampleEarly => { s with sampleEarly := b }
  | .disagree => { s with disagree := b }
  | .noPosition => { s with noPosition := b }
  | .revoked => { s with revoked := b }
  | .escalated => if b then s else { s with escalated := none }

/-- The latched kinds (the table of 8.2); the others are live. -/
def Source.isLatched : Source → Bool
  | .sampleEarly => false
  | .disagree => false
  | .noPosition => false
  | _ => true

/-- A source's action: the configured one, HOLD for NO_POSITION and REVOKED, the escalated level for ESCALATED
(R121, R122). -/
def sourceAction (c : ArmConfig) (s : Sources) : Source → Level
  | .reach => c.actions.reach
  | .intrusion => c.actions.intrusion
  | .fenceEntry => c.actions.fenceEntry
  | .sampleGap => c.actions.sampleGap
  | .sampleEarly => c.actions.sampleEarly
  | .disagree => c.actions.disagree
  | .noPosition => .hold
  | .revoked => .hold
  | .escalated => match s.escalated with
    | some e => e.level
    | none => .none

/-- A source's notify flag (R121). -/
def NotifyFlags.of (n : NotifyFlags) : Source → Bool
  | .reach => n.reach
  | .intrusion => n.intrusion
  | .fenceEntry => n.fenceEntry
  | .sampleGap => n.sampleGap
  | .sampleEarly => n.sampleEarly
  | .disagree => n.disagree
  | .noPosition => n.noPosition
  | .revoked => n.revoked
  | .escalated => n.escalated

/-- The highest action among the sources that are latched or asserted, NONE when there is none (R122). -/
def levelOf (c : ArmConfig) (s : Sources) : Level :=
  sourceList.foldl (fun l src => if s.has src then l.higher (sourceAction c s src) else l) .none

/-- A selection of sources as two bytes: bit i stands for source code i (11.6). -/
def sourceMask (keep : Source → Bool) : Nat :=
  sourceList.foldl (fun n src => n + flagBit (keep src) src.code) 0

/-- Whether a selection names a source; bits 9..15 have no effect (11.6). -/
def maskNames (mask : Nat) (src : Source) : Bool := mask.testBit src.code

/-! ## Verdicts and clearing conditions -/

/-- The kinds present in either verdict. -/
def Verdict.join (a b : Verdict) : Verdict :=
  ⟨a.reach || b.reach, a.intrusion || b.intrusion, a.fenceEntry || b.fenceEntry⟩

/-- The kind one cell gives an arm: the table of R51, by the fields of the cell's entry. -/
def judgeEntry (x : Arm) (e : Entry) : Verdict :=
  match e.owner with
  | some y => if y = x then .empty else ⟨false, true, false⟩
  | none => if e.hostFence || e.faultFence ≠ .none then ⟨false, false, true⟩ else ⟨true, false, false⟩

/-- The clearing condition of a latched source, at this moment (R132); a live source has none. -/
def clearable (c : ArmConfig) (a : ArmState) : Source → Bool
  | .reach => !a.verdict.reach
  | .intrusion => !a.verdict.intrusion
  | .fenceEntry => !a.verdict.fenceEntry
  | .sampleGap => a.intake.gap = .running
  | .revoked => true
  | .escalated => a.calculator.lastSpeed ≤ c.vStill
  | .sampleEarly => false
  | .disagree => false
  | .noPosition => false

/-! ## Permit lines -/

/-- SPEED_OK is given at NONE alone (R125). -/
def Level.givesSpeed (l : Level) : Bool := l = .none

/-- MOVE_OK is given at NONE and SLOW (R125). -/
def Level.givesMove (l : Level) : Bool := l = .none || l = .slow

/-- POWER_OK is given below HALT (R125). -/
def Level.givesPower (l : Level) : Bool := l ≠ .halt

/-- A line given or dropped; a line that stays as it was is not disturbed (R125). What a short did to it ends with
the change (log entry 10). -/
def PermitLine.drive (p : PermitLine) (give : Bool) : PermitLine :=
  if p.given = give then p else ⟨give, .none⟩

/-- Whether the permit arrives at the arm: the line is given and not shorted, be the short limited or the line off (R135). -/
def PermitLine.arrives (p : PermitLine) : Bool := p.given && p.short = .none

/-- The three lines at a level (R125); a supply loss holds every line dropped (R135). -/
def PermitLines.follow (p : PermitLines) (l : Level) (cut : Bool) : PermitLines where
  speedOk := p.speedOk.drive (l.givesSpeed && !cut)
  moveOk := p.moveOk.drive (l.givesMove && !cut)
  powerOk := p.powerOk.drive (l.givesPower && !cut)

/-- One named line changed. -/
def PermitLines.on (p : PermitLines) (n : PermitName) (f : PermitLine → PermitLine) : PermitLines :=
  match n with
  | .speedOk => { p with speedOk := f p.speedOk }
  | .moveOk => { p with moveOk := f p.moveOk }
  | .powerOk => { p with powerOk := f p.powerOk }

/-- An arm's lines driven for its level. -/
def Guard.followLines (g : Guard) (x : Arm) : Guard :=
  g.onUnit x fun u => { u with lines := u.lines.follow u.level g.linesCut }

end Sys2Proof.Machine
end

