-- ==== Sys2Proof/Machine/Footprint.lean ====
section
/-! DEFINITION. The footprint calculator (03_reach_footprints): six stages of exact integer arithmetic, and the
re-placing of a recorded box on a new grid. -/

namespace Sys2Proof.Machine

/-! ## Stage 1 (R36) -/

/-- One component clamped to -10000..10000. -/
def clampVelocity (v : Int) : Int := max (-10000) (min 10000 v)

/-- The three components clamped. -/
def Velocity.clamped (v : Velocity) : Velocity := ⟨clampVelocity v.x, clampVelocity v.y, clampVelocity v.z⟩

/-- How many components the clamp changes: the VELOCITY_CLAMPED events of the sample. -/
def Velocity.clampCount (v : Velocity) : Nat :=
  (if clampVelocity v.x = v.x then 0 else 1) + (if clampVelocity v.y = v.y then 0 else 1)
    + (if clampVelocity v.z = v.z then 0 else 1)

/-- The speed of a clamped velocity: the largest magnitude of its components. -/
def Velocity.speed (v : Velocity) : Nat := max (max v.x.natAbs v.y.natAbs) v.z.natAbs

/-! ## Stage 2 (R37, R38) -/

/-- A quotient rounded up. -/
def ceilDiv (n d : Nat) : Nat := (n + d - 1) / d

/-- The stopping distance along one axis, capped at 4095. -/
def stoppingDistance (tReact decel : Nat) (v : Int) : Nat :=
  if v = 0 then 0
  else min 4095 (ceilDiv (v.natAbs * tReact * decel + 50 * (v.natAbs * v.natAbs)) (1000 * decel))

/-! ## Stage 3 (R39, R40) -/

/-- The box of one position, with the clamped velocity and the stopping distances of both axes. -/
def positionBox (radius : Nat) (v : Velocity) (dx dy : Nat) (p : Position) : Box where
  xlo := p.x - radius - (if v.x < 0 then (dx : Int) else 0)
  xhi := p.x + radius + (if v.x < 0 then 0 else (dx : Int))
  ylo := p.y - radius - (if v.y < 0 then (dy : Int) else 0)
  yhi := p.y + radius + (if v.y < 0 then 0 else (dy : Int))

/-- The bounding box of two boxes. -/
def Box.bound (a b : Box) : Box := ⟨min a.xlo b.xlo, max a.xhi b.xhi, min a.ylo b.ylo, max a.yhi b.yhi⟩

/-- The stopping box of a sample: over both readings when p2 is present. -/
def stoppingBox (c : ArmConfig) (s : Sample) : Box :=
  let v := s.velocity.clamped
  let dx := stoppingDistance c.tReact c.decel v.x
  let dy := stoppingDistance c.tReact c.decel v.y
  let b1 := positionBox c.radius v dx dy s.p1
  match s.p2 with
  | none => b1
  | some p2 => b1.bound (positionBox c.radius v dx dy p2)

/-! ## Stage 4 (R41) -/

/-- The lowest height the tool could reach. -/
def lowestHeight (c : ArmConfig) (s : Sample) : Int :=
  let v := s.velocity.clamped
  let zbase := match s.p2 with
    | none => s.p1.z
    | some p2 => min s.p1.z p2.z
  if v.z < 0 then zbase - stoppingDistance c.tReact c.decel v.z else zbase

/-! ## Stage 5 (R42, R43) -/

/-- The cells a box covers: none when it misses the grid, else the rectangle brought to the grid's edges. -/
def Box.cellRange (b : Box) (c : ConfigSet) : Option Rect :=
  let colLo := c.columnOf b.xlo
  let colHi := c.columnOf b.xhi
  let rowLo := c.rowOf b.ylo
  let rowHi := c.rowOf b.yhi
  if colHi < 0 ∨ (c.nc : Int) - 1 < colLo ∨ rowHi < 0 ∨ (c.nr : Int) - 1 < rowLo then none
  else some
    { colLo := (max 0 colLo).toNat
      colHi := (min ((c.nc : Int) - 1) colHi).toNat
      rowLo := (max 0 rowLo).toNat
      rowHi := (min ((c.nr : Int) - 1) rowHi).toNat }

/-! ## Stage 6 (R44, R45) -/

/-- The height threshold for the zone state recorded before the sample. -/
def heightThreshold (c : ConfigSet) (previous : Zone) : Int :=
  if previous = .inside then (c.zEnter : Int) + c.zHyst else c.zEnter

/-- The whole calculation for one accepted sample (R35). -/
def Calculator.sample (k : Calculator) (c : ConfigSet) (x : Arm) (s : Sample) : Calculator :=
  let box := stoppingBox (c.arm x) s
  let low : Bool := lowestHeight (c.arm x) s < heightThreshold c k.zone
  let footprint := if low then box.cellRange c else none
  { zone := if footprint.isSome then .inside else .clear
    box := some box
    footprint := footprint
    lastSpeed := s.velocity.clamped.speed }

/-- The recorded box placed on a new grid: the zone state stays (R47). -/
def Calculator.replace (k : Calculator) (c : ConfigSet) : Calculator :=
  match k.box with
  | none => k
  | some b => { k with footprint := if k.zone = .inside then b.cellRange c else none }

end Sys2Proof.Machine
end

