-- ==== Sys2Proof/Machine/Plans.lean ====
section
/-! DEFINITION. The plan unit (07_pick_plans): slots, issuing, passes, outcomes, tallies and the end of a plan. -/

namespace Sys2Proof.Machine

/-- The plan of a slot that is not EMPTY (R104). -/
def Slot.plan? : Slot → Option Plan
  | .empty => none
  | .loaded p => some p
  | .active p => some p
  | .finishing p => some p

/-- The slot with its plan changed; its state stays. -/
def Slot.onPlan (s : Slot) (f : Plan → Plan) : Slot :=
  match s with
  | .empty => .empty
  | .loaded p => .loaded (f p)
  | .active p => .active (f p)
  | .finishing p => .finishing (f p)

/-- The slot states of 11.6. -/
def Slot.code : Slot → Nat
  | .empty => 0
  | .loaded _ => 1
  | .active _ => 2
  | .finishing _ => 3

def Slot.isActive : Slot → Bool
  | .active _ => true
  | _ => false

def Slot.isLoaded : Slot → Bool
  | .loaded _ => true
  | _ => false

/-- The arm's ACTIVE slot and its plan; an arm has at most one (R105). -/
def ArmState.activePlan (a : ArmState) : Option (SlotIx × Plan) :=
  match a.slot0, a.slot1 with
  | .active p, _ => some (.slot0, p)
  | _, .active p => some (.slot1, p)
  | _, _ => none

/-- The slot of a LOADED plan, and the plan. -/
def ArmState.loadedPlan (a : ArmState) : Option (SlotIx × Plan) :=
  match a.slot0, a.slot1 with
  | .loaded p, _ => some (.slot0, p)
  | _, .loaded p => some (.slot1, p)
  | _, _ => none

/-- A slot of an arm with its plan changed. -/
def ArmState.onPlan (a : ArmState) (i : SlotIx) (f : Plan → Plan) : ArmState := a.setSlot i ((a.slot i).onPlan f)

/-- A LOADED slot becomes ACTIVE (R105, R110). -/
def ArmState.activate (a : ArmState) (i : SlotIx) : ArmState :=
  match a.slot i with
  | .loaded p => a.setSlot i (.active p)
  | _ => a

/-- An ACTIVE slot goes FINISHING with its end reason, and a LOADED other slot becomes ACTIVE (R110, R114). -/
def ArmState.finishSlot (a : ArmState) (i : SlotIx) (p : Plan) (why : EndReason) : ArmState :=
  (a.setSlot i (.finishing { p with endReason := some why })).activate i.other

/-- Whether issuing ends: the issued count has come to 65535 (R110), or the pass has ended and was the plan's last,
or the plan is open-ended and another is LOADED behind it (R109). -/
def issuingEnds (p : Plan) (passEnded otherLoaded : Bool) : Bool :=
  p.issued = 65535 ||
    (passEnded && (if p.passes = 0 then otherLoaded else p.passes ≤ p.passesCompleted))

/-- The plan after one issue: issued and cursor, and passes completed when the pass has ended (R108, R109, R110). -/
def Plan.issue (p : Plan) : Plan × Bool :=
  let passEnded : Bool := p.entries.length ≤ p.cursor + 1
  let q := { p with
    issued := sat16 (p.issued + 1)
    passesCompleted := if passEnded then sat16 (p.passesCompleted + 1) else p.passesCompleted
    cursor := if passEnded || sat16 (p.issued + 1) = 65535 then 0 else p.cursor + 1 }
  (q, passEnded)

/-- One issue of the ACTIVE slot: the cursor moves, and the slot stays ACTIVE or goes FINISHING (R108 to R110). A slot that
goes FINISHING is judged before those that lost a claim in this event: its last claim, if it had one, left before
(R112). -/
def Event.issue (ev : Event) (x : Arm) (i : SlotIx) (p : Plan) : Event :=
  let (q, passEnded) := p.issue
  let ends := issuingEnds q passEnded ((ev.guard.arm x).slot i.other).isLoaded
  let ev := ev.onGuard fun g => g.onArm x fun a =>
    if ends then a.finishSlot i q .complete else a.setSlot i (.active q)
  if ends then { ev with judged := (x, i) :: ev.judged } else ev

/-- One more of an outcome (R104, R111). -/
def Plan.tally (o : EntryOutcome) (p : Plan) : Plan :=
  match o with
  | .picked => { p with picked := sat16 (p.picked + 1) }
  | .skipped => { p with skipped := sat16 (p.skipped + 1) }
  | .missed => { p with missed := sat16 (p.missed + 1) }

/-- The counter event of an outcome (R111). -/
def EntryOutcome.event : EntryOutcome → CountEvent
  | .picked => .picks
  | .skipped => .skips
  | .missed => .misses

/-- An outcome added to the tally of a slot and signalled to the counter bank (R111). -/
def Event.tally (ev : Event) (x : Arm) (i : SlotIx) (o : EntryOutcome) : Event :=
  (ev.onGuard fun g => g.onArm x fun a => a.onPlan i (Plan.tally o)).signal x o.event 1

/-- A claim has left the table: for a PLAN claim the plan unit is told the outcome and mode control that it left
(R63, R111); a SUPERVISOR claim tells nobody (R88). -/
def Event.settleEntry (ev : Event) (c : Claim) (o : EntryOutcome) : Event :=
  match c.origin with
  | .supervisor => ev
  | .plan i _ =>
    let ev := ev.tally c.arm i o
    { ev with judged := ev.judged ++ [(c.arm, i)], planLeft := true }

/-- Whether a slot has a claim in the table (R112). -/
def Guard.slotHasClaim (g : Guard) (x : Arm) (i : SlotIx) : Bool :=
  g.claims.any fun c => c.arm = x && (match c.origin with | .plan j _ => j = i | .supervisor => false)

/-- What PLAN_END carries of a plan (R112). -/
def Plan.ended (p : Plan) (x : Arm) (i : SlotIx) : PlanEnd := ⟨x, i, p.planId, p.picked, p.skipped, p.missed, p.endReason⟩

/-- A FINISHING slot with no claim in the table posts PLAN_END to the host and to the arm and becomes EMPTY (R112). -/
def Event.endPlan (ev : Event) (x : Arm) (i : SlotIx) : Event :=
  match (ev.guard.arm x).slot i with
  | .finishing p =>
    if ev.guard.slotHasClaim x i then ev
    else
      ((ev.post (.toHost (.planEnd (p.ended x i)))).post (.toArm x (.planEnd (p.ended x i)))).onGuard fun g =>
        g.onArm x fun a => a.setSlot i .empty
  | _ => ev

/-- The list with only the last occurrence of each element. -/
def keepLast {α : Type} [DecidableEq α] : List α → List α
  | [] => []
  | a :: as => if a ∈ as then keepLast as else a :: keepLast as

/-- The end of an event for the plan slots: each slot that went FINISHING or lost a claim is judged, the one whose
last claim left first coming first (R112); a slot that never had a claim comes before one that lost its last claim in
this event (log entry 25). -/
def Event.endPlans (ev : Event) : Event :=
  (keepLast ev.judged).foldl (fun ev j => ev.endPlan j.1 j.2) { ev with judged := [] }

end Sys2Proof.Machine
end

