-- ==== Sys2Proof/Machine/Claims.lean ====
section
/-! DEFINITION. Claims that leave the table while waiting (05_claims_and_the_arbiter R77, R80 to R82). -/

namespace Sys2Proof.Machine

/-- The names of the claims that satisfy `p`, in the order of their creation. -/
def Guard.keysWhere (g : Guard) (p : Claim → Bool) : List ClaimKey := (g.claims.filter p).map Claim.key

/-- The reserving claim of an arm becomes senior (R77). -/
def Guard.promote (g : Guard) (x : Arm) : Guard :=
  { g with claims := g.claims.map fun c =>
      if c.arm = x ∧ c.reserving = .junior then { c with reserving := .senior } else c }

/-- What becomes of seniority when a claim is granted or leaves: after the senior, the other arm's reserving claim is
the senior (R77). -/
def Guard.succeed (g : Guard) (c : Claim) : Guard := if c.reserving = .senior then g.promote c.arm.other else g

/-- A waiting claim leaves the table with its notice: its timers and reservations go with its record, the plan unit is
told that its entry was missed, and an evaluation is called for (R82). The entries that lose a reservation are written
without a read through the check (R137; log entry 18). -/
def Event.leaveWaiting (ev : Event) (c : Claim) (n : ArmNotice) : Event :=
  (((ev.onGuard fun g => ((g.removeClaim c.key).succeed c).reindex c.reserved).post (.toArm c.arm n)).settleEntry
    c .missed).callEvaluation true

/-- A waiting claim withdrawn (R81, R82). -/
def Event.withdraw (ev : Event) (c : Claim) : Event := ev.leaveWaiting c (.withdrawn c.number c.origin)

/-- A waiting claim bounced (R79, R80, R82). -/
def Event.bounce (ev : Event) (c : Claim) (why : BounceReason) : Event :=
  ev.leaveWaiting c (.bounced c.number c.origin why)

/-- Something done to each of the named claims that is still in the table, in the order given. -/
def Event.forClaims (ev : Event) (keys : List ClaimKey) (f : Event → Claim → Event) : Event :=
  keys.foldl (fun ev k => match ev.guard.claim? k with
    | some c => f ev c
    | none => ev) ev

/-- Every waiting claim that satisfies `p` withdrawn, older first: for STOP by R152; at a rise of level and for DROP_PLAN,
where no rule gives an order, by the model's choice (log entry 39). -/
def Event.withdrawAll (ev : Event) (p : Claim → Bool) : Event :=
  ev.forClaims (ev.guard.keysWhere fun c => c.isWaiting && p c) Event.withdraw

end Sys2Proof.Machine
end

