-- ==== Sys2Proof/Machine/Integrity.lean ====
section
/-! DEFINITION. Reading the cell map through the check, poisoning a cell, and forming waiting claims anew
(09_map_integrity R136 to R139, R142; 01_the_bin_grid R12, R13). -/

namespace Sys2Proof.Machine

/-- What the next read or verify finds: the outcome State foretells, else the free value Config.finding
(log entry 2). -/
def Guard.drawFinding (g : Guard) : Finding × Guard :=
  match g.findings with
  | f :: rest => (f, { g with findings := rest })
  | [] => (Config.finding g.reads, { g with reads := g.reads + 1 })

/-- A section error counter rises, and is tested against the threshold: only for an active section, and not from the
rise that reached the threshold to the reset (R142). -/
def Event.rise (ev : Event) (s n : Nat) : Event :=
  if ev.guard.isActive s && s ∉ ev.reached then
    let ev := ev.onGuard fun g => g.onSection s fun t => { t with errors := t.errors + n }
    if ev.guard.cfg.retireThreshold ≤ (ev.guard.sections.get s).errors then { ev with reached := ev.reached ++ [s] } else ev
  else ev

/-- The changes of a poisoning to the records and the entry, the forming anew of waiting claims apart (R138 steps 1 to
4 and 6). -/
def Guard.poisonCell (g : Guard) (c : Cell) : Guard :=
  let g : Guard := { g with
    poisoned := addCell c g.poisoned
    claims := g.claims.map fun k => { k with
      effective := if k.isHeld then dropCell k.effective c else k.effective
      reserved := dropCell k.reserved c } }
  let g := (g.onVacate .A fun v => dropCell v c).onVacate .B fun v => dropCell v c
  (g.onSection c.sec fun t => { t with poisonings := sat32 (t.poisonings + 1) }).reindexCell c

/-- A cell poisoned (R138): the waiting claims that include it are formed anew by `Event.settle`, and a reservation
removed calls for an evaluation. -/
def Event.poison (ev : Event) (c : Cell) : Event :=
  { ((ev.callEvaluation (ev.guard.claims.any fun k => c ∈ k.reserved)).onGuard fun g => g.poisonCell c) with
    touched := addCell c ev.touched }

/-- The section error counter that MAP_ERROR carries (R146). -/
def Guard.errorsOf (g : Guard) (c : Cell) : Nat := (g.sections.get c.sec).errors

/-- An uncorrectable read: the entry is rebuilt from the records and the rise and the count are made (R136). -/
def Event.uncorrectable (ev : Event) (c : Cell) : Event :=
  ((ev.onGuard fun g => g.reindexCell c).rise c.sec 4).onGuard fun g =>
    g.onSection c.sec fun t => { t with uncorrectable := sat32 (t.uncorrectable + 1) }

/-- One read of a cell's entry through the check (R136), the forming anew of waiting claims still to come. A poisoned
cell reads as good, and damage to its entry counts nothing, so nothing is drawn for it. -/
def Event.readRaw (ev : Event) (who : Reader) (c : Cell) : Event × Entry :=
  if c ∈ ev.guard.poisoned then (ev, ev.guard.entryOf c)
  else
    let (finding, g) := ev.guard.drawFinding
    let ev := { ev with guard := g }
    let ev := match finding with
      | .good => ev
      | .corrected => (ev.rise c.sec 1).onGuard fun g =>
          g.onSection c.sec fun t => { t with corrected := sat32 (t.corrected + 1) }
      | .rebuilt =>
        let ev := ev.uncorrectable c
        ev.postRead (.mapError c who true (ev.guard.errorsOf c))
      | .unholding =>
        let ev := ev.uncorrectable c
        let owner := ev.guard.ownerOf c
        ((ev.postRead (.mapError c who false (ev.guard.errorsOf c))).poison c).postRead (.poisoned c owner .read)
    (ev, ev.guard.entryOf c)

/-- The cells of a list that are left in an effective set, each read through the check (R12, R136). -/
def Event.formRaw (ev : Event) : CellSet → Event × CellSet
  | [] => (ev, [])
  | c :: cs =>
    let (ev, e) := ev.readRaw .arbiter c
    let (ev, rest) := ev.formRaw cs
    (ev, if e.isExcluded then rest else c :: rest)

/-- A waiting claim of `count` cells with the effective set `kept`: cells that leave its effective set leave its
reservations (R13). -/
def Guard.refit (g : Guard) (k : ClaimKey) (old : CellSet) (kept : CellSet) (count : Nat) : Guard :=
  (g.onClaim k fun c => { c with
    effective := kept
    excluded := count - kept.length
    reserved := c.reserved.filter fun d => d ∈ kept }).reindex (minusCells old kept)

/-- A waiting claim formed anew: its effective set and excluded count (R13); an empty set bounces it (R80). -/
def Event.reform (ev : Event) (k : ClaimKey) : Event :=
  match ev.guard.claim? k with
  | none => ev
  | some c =>
    let cells := c.shape.cells ev.guard.cfg
    let (ev, kept) := ev.formRaw cells
    let ev := ev.onGuard fun g => g.refit k c.reserved kept cells.length
    let ev := { ev with evaluate := true, reformed := ev.reformed ++ [k] }
    match ev.guard.claim? k with
    | some c => if kept.isEmpty then ev.bounce c .empty else ev
    | none => ev

/-- Every waiting claim whose cell set has a touched cell is formed anew, until no cell is touched: the reads that form
one can themselves poison cells. The rules give the claims no order; older first is the model's choice (log entry 37). Each
further round takes a newly poisoned cell, so 769 rounds are enough for the 768 cells of the store. -/
def Event.settleRounds : Nat → Event → Event
  | 0, ev => ev
  | n + 1, ev =>
    if ev.touched.isEmpty then ev
    else
      let keys := ev.guard.keysWhere fun c => c.isWaiting && meets (c.shape.cells ev.guard.cfg) ev.touched
      (keys.foldl Event.reform { ev with touched := [] }).settleRounds n

/-- The waiting claims follow the changes of the fence layer and the fault-fence set (R13). -/
def Event.settle (ev : Event) : Event := ev.settleRounds 769

/-- One read of a cell, with everything a poisoning found by it brings at once: waiting claims are formed anew between this
read and the next, so a cell that this poisons is seen by the reads after it and not by what an earlier read delivered
(R136 to R138, R56; log entry 17). -/
def Event.readCell (ev : Event) (who : Reader) (c : Cell) : Event × Entry :=
  let (ev, e) := ev.readRaw who c
  (ev.settle, e)

/-- Some cells read in order, with the value each read delivered. -/
def Event.readCells (ev : Event) (who : Reader) : CellSet → Event × List Entry
  | [] => (ev, [])
  | c :: cs =>
    let (ev, e) := ev.readCell who c
    let (ev, es) := ev.readCells who cs
    (ev, e :: es)

/-- The effective set of a request's cells: every cell is read, and those are kept whose entries do not exclude them once
the last read is made, since a read can poison a cell read before it (R12, R138). -/
def Event.form (ev : Event) (cells : CellSet) : Event × CellSet :=
  let ev := (ev.readCells .arbiter cells).1
  (ev, cells.filter fun c => !(ev.guard.entryOf c).isExcluded)

/-- One entry written from the records and verified: the verify fails exactly on `unholding` (R145, R147). -/
def Event.rewrite (ev : Event) (c : Cell) : Event × Bool :=
  let (finding, g) := (ev.guard.reindexCell c).drawFinding
  ({ ev with guard := g }, finding ≠ .unholding)

/-- Entries written and verified in order; each that fails is poisoned, with POISONED posted. -/
def Event.rewriteAll (ev : Event) (cause : PoisonCause) (cells : CellSet) : Event :=
  cells.foldl (fun ev c =>
    let owner := ev.guard.ownerOf c
    let (ev, holds) := ev.rewrite c
    if holds then ev else ((ev.poison c).settle).post (.toHost (.poisoned c owner cause))) ev

end Sys2Proof.Machine
end

