-- ==== Sys2Proof/Machine/Arbiter.lean ====
section
/-! DEFINITION. The claim arbiter (05_claims_and_the_arbiter): making a claim, the evaluation, the grant, the
reservation step, and the cause of a wait. -/

namespace Sys2Proof.Machine

/-! ## Making a claim (R64, R65) -/

/-- The number the arm's next claim takes: the number of a claim it still has in the table is passed over (R65). -/
def Guard.claimNumber (g : Guard) (x : Arm) : Byte :=
  let n := (g.arm x).nextNumber
  if g.claims.any fun c => c.arm = x && c.number = n then n + 1 else n

/-- The record of a new claim (R64). -/
def Guard.newClaim (g : Guard) (x : Arm) (o : Origin) (s : Shape) (cells : CellSet) (excluded priority : Nat) : Claim where
  arm := x
  number := g.claimNumber x
  origin := o
  shape := s
  effective := cells
  excluded := excluded
  base := priority
  priority := priority
  phase := .waiting
  waitStart := g.now
  reserving := .no
  reserved := []
  entered := false
  aging := if priority < 7 then g.timerFor g.cfg.tAge else none
  timeout := match o with
    | .plan _ _ => if 0 < g.cfg.tWaitMax then g.timerFor g.cfg.tWaitMax else none
    | .supervisor => none

/-- A claim enters the table, which is kept in the order of creation; the next claim number stands after the number
taken (R65). -/
def Guard.addClaim (g : Guard) (c : Claim) : Guard :=
  { g.onArm c.arm fun a => { a with nextNumber := c.number + 1 } with claims := g.claims ++ [c] }

/-! ## The order of the candidates (R70, R72) -/

/-- Whether candidate `a` is taken before candidate `b` of the other arm. -/
def Guard.takenBefore (g : Guard) (a b : Claim) : Bool :=
  b.priority < a.priority ||
    (a.priority == b.priority &&
      (a.waitStart < b.waitStart || (a.waitStart == b.waitStart && g.lastGranted ≠ a.arm)))

/-- An arm's candidate: its eligible claim, when this evaluation has not taken it. -/
def Guard.candidateOf (g : Guard) (taken : List ClaimKey) (x : Arm) : Option Claim :=
  (g.eligible x).filter fun c => c.key ∉ taken

/-- The candidate to take next. -/
def Guard.nextCandidate (g : Guard) (taken : List ClaimKey) : Option Claim :=
  match g.candidateOf taken .A, g.candidateOf taken .B with
  | some a, some b => if g.takenBefore a b then some a else some b
  | some a, none => some a
  | none, b => b

/-! ## The test (R73) -/

/-- A cell stands in no candidate's way: FREE or owned by its own arm, and not reserved for the other arm. -/
def Entry.availableTo (e : Entry) (x : Arm) : Bool := (e.isFree || e.owner = some x) && e.reservedFor ≠ some x.other

/-- Every cell read, and whether all are available; none when a read poisoned its cell, so that the test starts over. -/
def Event.testCells (ev : Event) (x : Arm) (ok : Bool) : CellSet → Event × Option Bool
  | [] => (ev, some ok)
  | c :: cs =>
    let (ev, e) := ev.readCell .arbiter c
    if e.faultFence = .poisoned then (ev, none) else ev.testCells x (ok && e.availableTo x) cs

/-- Whether a candidate is grantable: it is tested from the start again when a read poisoned its cell, and when a forming
anew changed its effective set behind the test. Each new start takes a newly poisoned cell. A candidate bounced by the
forming anew is gone from the table. -/
def Event.testClaim : Nat → Event → ClaimKey → Event × Bool
  | 0, ev, _ => (ev, false)
  | n + 1, ev, k =>
    match ev.guard.claim? k with
    | none => (ev, false)
    | some c =>
      match ev.testCells c.arm true c.effective with
      | (ev, some ok) =>
        if (ev.guard.claim? k).map Claim.effective = some c.effective then (ev, ok) else ev.testClaim n k
      | (ev, none) => ev.testClaim n k

/-! ## The grant (R74, R75) -/

/-- A claim's record at its grant. -/
def Claim.granted (c : Claim) : Claim :=
  { c with
    phase := .held
    reserving := .no
    reserved := []
    entered := false
    aging := none
    timeout := none }

/-- The plan id and the pick point that GRANTED carries for a claim. -/
def Guard.planOf (g : Guard) (c : Claim) : Nat × Option (Int × Int) :=
  match c.origin with
  | .supervisor => (0, none)
  | .plan i n =>
    match ((g.arm c.arm).slot i).plan? with
    | none => (0, none)
    | some p => (p.planId, (p.entries[n]?).bind PlanEntry.pick)

/-- GRANTED (R75). -/
def Guard.grantedNotice (g : Guard) (c : Claim) : ArmNotice :=
  .granted c.number c.origin (g.planOf c).1 (g.planOf c).2 c.effective.length c.excluded

/-- The changes of a grant to the records and the entries. -/
def Guard.grant (g : Guard) (c : Claim) : Guard :=
  ({ ((g.onClaim c.key Claim.granted).onVacate c.arm fun v => minusCells v c.effective).succeed c with
    lastGranted := c.arm }).reindex (unionCells c.effective c.reserved)

/-- A grantable candidate is granted. -/
def Event.grant (ev : Event) (c : Claim) : Event :=
  (((ev.onGuard fun g => g.grant c).signal c.arm .grants 1).signal c.arm .cellsExcluded c.excluded).post
    (.toArm c.arm (ev.guard.grantedNotice c))

/-! ## The reservation step (R76) -/

/-- The other arm's reserving claim. -/
def Guard.reservingOf (g : Guard) (x : Arm) : Option Claim := g.claims.find? fun c => c.arm = x && c.reserving ≠ .no

/-- The seniority of a claim in the step. -/
def Guard.rankOf (g : Guard) (c : Claim) : Reserving :=
  if c.reserving = .no then (if (g.reservingOf c.arm.other).isSome then .junior else .senior) else c.reserving

/-- The cells the step may not reserve. -/
def Guard.keptFrom (g : Guard) (c : Claim) : CellSet :=
  match g.reservingOf c.arm.other with
  | none => []
  | some k => if g.rankOf c = .junior ∧ k.reserving = .senior then unionCells k.reserved k.effective else k.reserved

/-- The reservation step of a candidate that is not grantable at priority 7. -/
def Guard.reserve (g : Guard) (c : Claim) : Guard :=
  let cells := unionCells c.reserved (minusCells c.effective (g.keptFrom c))
  (g.onClaim c.key fun k => { k with reserving := g.rankOf c, reserved := cells }).reindex cells

/-! ## The evaluation (R71, R72) -/

/-- One candidate taken: tested, then granted, or reserved for at priority 7. -/
def Event.takeCandidate (ev : Event) (k : ClaimKey) : Event :=
  let (ev, grantable) := ev.testClaim 769 k
  match ev.guard.claim? k with
  | none => ev
  | some c =>
    if grantable then ev.grant c else if c.priority = 7 then ev.onGuard fun g => g.reserve c else ev

/-- Candidates taken one at a time; a claim formed anew since it was taken is a candidate again. -/
def Event.evaluateRounds : Nat → Event → List ClaimKey → Event
  | 0, ev, _ => ev
  | n + 1, ev, taken =>
    match ev.guard.nextCandidate taken with
    | none => ev
    | some c =>
      let ev := { ev with reformed := [] }.takeCandidate c.key
      ev.evaluateRounds n ((taken.filter fun k => k ∉ ev.reformed) ++ [c.key])

/-- One evaluation, outside INIT. Each round takes one of at most four claims, or a claim formed anew by one of at most
768 poisonings, so the rounds are enough. -/
def Event.runEvaluation (ev : Event) : Event :=
  if ev.guard.mode = .init then { ev with evaluate := false }
  else { ev.evaluateRounds 4000 [] with evaluate := false, reformed := [] }

/-- The evaluation that the event so far calls for, if any. -/
def Event.evaluateIfCalled (ev : Event) : Event := if ev.evaluate then ev.runEvaluation else ev

/-! ## Wait attribution (R84) -/

/-- The cause of an arm's wait: the state of its eligible claim's cells; none when it has no waiting claim. The store's
entries are looked at without a read through the check (log entry 19). -/
def Guard.waitCause (g : Guard) (x : Arm) : Option CountEvent :=
  match g.eligible x with
  | none => none
  | some c =>
    let es := c.effective.map g.entryOf
    if es.any fun e => e.owner = some x.other && !e.vacating then some .waitOther
    else if es.any fun e => e.owner = some x.other && e.vacating then some .waitVacating
    else if es.any fun e => e.reservedFor = some x.other then some .waitReserved
    else none

end Sys2Proof.Machine
end

