-- ==== Sys2Proof/Machine/Action.lean ====
section
/-! DEFINITION. The action unit (08_fault_sources): raising and removing sources, the level and what follows a change
of it, FAULT notices, escalation. -/

namespace Sys2Proof.Machine

/-- A latched source raised or a live source asserted; one that already is stays so, and that is no change to report
(R119, R120). -/
def Event.raise (ev : Event) (x : Arm) (src : Source) : Event :=
  if (ev.guard.arm x).unit.sources.has src then ev
  else
    { (ev.onGuard fun g => g.onUnit x fun u => { u with sources := u.sources.put src true }) with
      changes := ev.changes ++ [⟨x, src, if src.isLatched then .raised else .asserted⟩] }

/-- A live source removed, or a latched source cleared: nothing is reported (R120). -/
def Event.lower (ev : Event) (x : Arm) (src : Source) : Event :=
  ev.onGuard fun g => g.onUnit x fun u => { u with sources := u.sources.put src false }

/-- A live source follows its condition. -/
def Event.setLive (ev : Event) (x : Arm) (src : Source) (holds : Bool) : Event :=
  if holds then ev.raise x src else ev.lower x src

/-- ESCALATED latched with a level, or its level raised; either is a raise (R128, R129). -/
def Event.escalate (ev : Event) (x : Arm) (e : Escalation) : Event :=
  { (ev.onGuard fun g => g.onUnit x fun u => { u with sources := { u.sources with escalated := some e } }) with
    changes := ev.changes ++ [⟨x, .escalated, .raised⟩] }

/-- The level of the arm's sources; HALT throughout INIT (R122). -/
def Guard.levelFor (g : Guard) (x : Arm) : Level :=
  if g.mode = .init then .halt else levelOf (g.cfg.arm x) (g.arm x).unit.sources

/-- The level changed, with the permit lines and the two escalation timers following (R124 to R127): the slow timer
starts at a rise to SLOW, the hold timer at a rise to HOLD, and a change stops the timer of the level left. -/
def Guard.changeLevel (g : Guard) (x : Arm) (new : Level) : Guard :=
  let old := (g.arm x).unit.level
  (g.onUnit x fun u => { u with
    level := new
    slowTimer := if old = .none ∧ new = .slow then g.timerFor (g.cfg.arm x).tSlow else none
    holdTimer := if (old = .none ∨ old = .slow) ∧ new = .hold then g.timerFor (g.cfg.arm x).tHold else none
    }).followLines x

/-- The level computed anew (R122). A rise from below HOLD to HOLD or HALT withdraws the arm's waiting PLAN claims
(R81, R124). -/
def Event.computeLevel (ev : Event) (x : Arm) : Event :=
  let old := (ev.guard.arm x).unit.level
  let new := ev.guard.levelFor x
  if new = old then ev
  else
    let ev := ev.onGuard fun g => g.changeLevel x new
    if !old.atLeastHold && new.atLeastHold then ev.withdrawAll fun c => c.arm = x && c.isPlan else ev

/-- The FAULT notices of the changes so far, in their order, of the sources whose notify flag is on; the level they
carry is computed by then (R120). -/
def Event.postFaults (ev : Event) : Event :=
  ev.changes.foldl (fun ev ch =>
    let c := ev.guard.cfg.arm ch.arm
    let u := (ev.guard.arm ch.arm).unit
    if c.notify.of ch.source then
      ev.post (.toHost (.fault ch.arm ch.source ch.change (sourceAction c u.sources ch.source) u.level))
    else ev) { ev with changes := [] }

/-- The end of an event's changes to one action unit: the level once, then its FAULT notices, which carry this level even
when a retirement at the end of the event raises it (R120, R123, R143; log entry 33). -/
def Event.settleLevel (ev : Event) (x : Arm) : Event := (ev.computeLevel x).postFaults

/-- REVOKED latched for each of two arms that the test names, then both levels and the FAULT notices (R100, R101); arm A's
latch, level and FAULT come before arm B's (log entry 7). -/
def Event.latchRevoked (ev : Event) (named : Arm → Bool) : Event :=
  let latch (ev : Event) (x : Arm) : Event :=
    if named x && (ev.guard.arm x).calculator.zone = .inside then ev.raise x .revoked else ev
  (((latch (latch ev .A) .B).computeLevel .A).computeLevel .B).postFaults

end Sys2Proof.Machine
end

