-- ==== Sys2Proof/Machine/Handover.lean ====
section
/-! DEFINITION. The handover (06_release_vacating_and_revocation): ending held claims, letting cells go, vacate
progress, completion and revocation. -/

namespace Sys2Proof.Machine

/-- Cells the records no longer give an owner: their entries are written, FREE or FENCED by R17, and one that became
FREE calls for an evaluation (R71, R89). -/
def Event.letGo (ev : Event) (cells : CellSet) : Event :=
  let ev := ev.onGuard fun g => g.reindex cells
  ev.callEvaluation (cells.any fun c => (ev.guard.entryOf c).isFree)

/-- The cells of a claim's effective set that no other HELD claim of its arm keeps (R89). -/
def Guard.ownCellsOf (g : Guard) (c : Claim) : CellSet :=
  c.effective.filter fun d => !g.claims.any fun k => k.isHeld && k.arm = c.arm && k.key ≠ c.key && d ∈ k.effective

/-- A held claim ends (R88, R89): its cells are read, its record leaves the table, the plan unit and mode control are
told, and each cell not kept by the arm's other held claim is let go when the arm is CLEAR, else joins the arm's vacate
set. The reads are made while the claim is in the table (log entry 16). -/
def Event.endHeld (ev : Event) (k : ClaimKey) (o : EntryOutcome) : Event :=
  match ev.guard.claim? k with
  | none => ev
  | some c =>
    let ev := (ev.readCells .handover (ev.guard.ownCellsOf c)).1
    match ev.guard.claim? k with
    | none => ev
    | some c =>
      let cells := ev.guard.ownCellsOf c
      let ev := (ev.onGuard fun g => g.removeClaim k).settleEntry c o
      if (ev.guard.arm c.arm).calculator.zone = .clear then ev.letGo cells
      else ev.onGuard fun g => (g.onVacate c.arm fun v => unionCells v cells).reindex cells

/-- At an INSIDE to CLEAR sample every entered held claim completes, older first (R90, R91). -/
def Event.complete (ev : Event) (x : Arm) : Event :=
  (ev.guard.keysWhere fun c => c.arm = x && c.isHeld && c.entered).foldl (fun ev k => ev.endHeld k .picked) ev

/-- Vacate progress: the vacating cells the new footprint does not cover are let go (R94), all of them read before any is,
by the model's choice (log entry 41). -/
def Event.vacateProgress (ev : Event) (x : Arm) : Event :=
  let uncovered (g : Guard) : CellSet :=
    (g.arm x).vacate.filter fun c => !covered (g.arm x).calculator.footprint c
  let ev := (ev.readCells .handover (uncovered ev.guard)).1
  let cells := uncovered ev.guard
  (ev.onGuard fun g => g.onVacate x fun v => minusCells v cells).letGo cells

/-- A held claim revoked (R101): REVOKED to the arm, then the claim ends, its entry missed. -/
def Event.revoke (ev : Event) (c : Claim) : Event :=
  (ev.post (.toArm c.arm (.revoked c.number c.origin))).endHeld c.key .missed

/-- How many claims an event has revoked and withdrawn. -/
structure EndCount where
  revoked : Nat
  withdrawn : Nat
  deriving DecidableEq, Repr

/-- Claims ended whatever their state, in the order given: a waiting one withdrawn, a held one revoked (R99, R145). -/
def Event.endClaims (ev : Event) : List ClaimKey → Event × EndCount
  | [] => (ev, ⟨0, 0⟩)
  | k :: ks =>
    match ev.guard.claim? k with
    | none => ev.endClaims ks
    | some c =>
      if c.isHeld then
        let (ev, n) := (ev.revoke c).endClaims ks
        (ev, ⟨n.revoked + 1, n.withdrawn⟩)
      else
        let (ev, n) := (ev.withdraw c).endClaims ks
        (ev, ⟨n.revoked, n.withdrawn + 1⟩)

end Sys2Proof.Machine
end

