-- ==== Sys2Proof/Machine/Retirement.lean ====
section
/-! DEFINITION. The scrub cursor, the retirement of a section, the last-section flush, and the end of an event
(09_map_integrity R140 to R145; R112, R153). -/

namespace Sys2Proof.Machine

/-! ## The scrub visit (R140, R141) -/

/-- A duration in milliseconds as time-base steps (R140, R142). -/
def msSteps (ms : Nat) : Nat := 10 * ms

/-- The columns of the grid that lie in active sections. -/
def Guard.scrubColumns (g : Guard) : List Nat := (List.range g.cfg.nc).filter fun c => g.isActive (c / 8)

/-- The length N of the scrub visit. -/
def Guard.scrubLength (g : Guard) : Nat := g.cfg.nr * g.scrubColumns.length

/-- The cell at a position of the scrub visit, in row-major order. -/
def Guard.scrubCell (g : Guard) (pos : Nat) : Cell :=
  let cols := g.scrubColumns
  ⟨cols.getD (pos % cols.length) 0, pos / cols.length⟩

/-- The scrub cursor set to the first cell, with a new pass that starts now (R141). -/
def Guard.restartScrub (g : Guard) : Guard := { g with scrub := ⟨0, g.now, msSteps g.cfg.scrubPeriod, true⟩ }

/-- The time of the cursor's visit. -/
def Guard.scrubTime (g : Guard) : Nat := g.scrub.start + g.scrub.pos * g.scrub.period / g.scrubLength

/-- The period of the pass under way: a pass takes the scrub_period in force at its start (R141). -/
def Guard.passPeriod (g : Guard) : Nat := if g.scrub.begun then g.scrub.period else msSteps g.cfg.scrubPeriod

/-- The cursor after its visit: at the last cell a scrub pass is counted and the next pass starts one period on
(R140). -/
def Guard.advanceScrub (g : Guard) : Guard :=
  let p := g.passPeriod
  if g.scrub.pos + 1 < g.scrubLength then { g with scrub := ⟨g.scrub.pos + 1, g.scrub.start, p, true⟩ }
  else { g with scrub := ⟨0, g.scrub.start + p, p, false⟩, scrubPasses := sat32 (g.scrubPasses + 1) }

/-! ## Retirement (R144) -/

/-- Steps 1 to 4: the section is retired, its counter is 0, and its cells leave every reservation. -/
def Guard.retireSection (g : Guard) (s : Nat) : Guard :=
  let g := g.onSection s fun t => { t with retired := true, errors := 0 }
  let g : Guard := { g with claims := g.claims.map fun c => { c with reserved := c.reserved.filter fun d => d.sec ≠ s } }
  g.reindex (g.sectionCells s)

/-- The retirement of a section. Its cells are read before step 1, so the counter in their MAP_ERRORs is not reset yet
(R137, R143; log entry 14). RETIRED counts as fenced at once the cells that are FREE once the last read is made, and as
pending those that are owned then, the cells of a CLEAR arm's revoked claims among them (log entry 15): a cell that one of
these reads poisoned is fenced already (R139); as bounced it counts the claims that step 6 bounces, not those that a
poisoning found by the retirement's own reads bounced (log entry 34). -/
def Event.retire (ev : Event) (s : Nat) : Event :=
  let cells := ev.guard.sectionCells s
  let ev := (ev.readCells .scrub cells).1
  let es := cells.map ev.guard.entryOf
  let nFenced := (es.filter Entry.isFree).length
  let nPending := (es.filter fun e => e.owner.isSome).length
  let ev := { (ev.onGuard fun g => g.retireSection s) with reached := ev.reached.filter fun t => t ≠ s }
  let hit := ev.guard.claims.filter fun c => c.isHeld && c.effective.any fun d => d.sec = s
  let (ev, n) := ev.endClaims (hit.map Claim.key)
  let ev := ev.latchRevoked fun x => hit.any fun c => c.arm = x
  let waiting := (ev.guard.keysWhere Claim.isWaiting).length
  let ev := { ev with touched := unionCells ev.touched cells }.settle
  let nBounced := waiting - (ev.guard.keysWhere Claim.isWaiting).length
  ((ev.post (.toHost (.retired s nFenced nPending n.revoked nBounced))).onGuard Guard.restartScrub).runEvaluation

/-! ## The last-section flush (R145) -/

/-- The flush of the only active section. A cell that is poisoned already is written and not counted again
(log entry 27). -/
def Event.flush (ev : Event) (s : Nat) : Event :=
  let (ev, n) := ev.endClaims (ev.guard.keysWhere fun _ => true)
  let ev := ev.latchRevoked fun _ => true
  let cells := ev.guard.sectionCells s
  let before := ev.guard.poisoned
  let ev := (ev.onGuard fun g => g.reindex (cells.filter fun c => c ∈ before)).rewriteAll .flush
    (cells.filter fun c => c ∉ before)
  let nPoisoned := ev.guard.poisoned.length - before.length
  let ev := { (ev.onGuard fun g => g.onSection s fun t => { t with errors := 0 }) with
    reached := ev.reached.filter fun t => t ≠ s }
  (ev.post (.toHost (.flushed s n.revoked n.withdrawn nPoisoned))).runEvaluation

/-! ## The end of an event -/

/-- Whether some other section is active (R143). -/
def Guard.otherActive (g : Guard) (s : Nat) : Bool := sectionNumbers.any fun t => t ≠ s && g.isActive t

/-- The sections whose counters reached the threshold, one after the other in that order (R143). At most three
sections can be retired and the last one flushed, and a flush leaves no candidate whose test could read a cell. -/
def Event.dealWithSections : Nat → Event → Event
  | 0, ev => ev
  | n + 1, ev =>
    match ev.reached with
    | [] => ev
    | s :: rest =>
      let ev :=
        if !ev.guard.isActive s then { ev with reached := rest }
        else if ev.guard.otherActive s then ev.retire s else ev.flush s
      ev.dealWithSections n

/-- The last PLAN claim has left the table in DRAINING: the mode becomes SETUP (R153). -/
def Event.endDraining (ev : Event) : Event :=
  if ev.guard.mode = .draining ∧ ev.planLeft ∧ !ev.guard.hasPlanClaim then
    (ev.onGuard fun g => { g with mode := .setup }).post (.toHost (.mode .setup .drainEnd))
  else ev

/-- The event's reply is formed: MAP_ERROR and POISONED of its reads so far are posted (R137). -/
def Event.afterReply (ev : Event) : Event := { ev with out := ev.out ++ ev.late, late := [], replied := true }

/-- The end of every event: the evaluation it calls for, the notices held back, the sections over the threshold, the
ends of plans, the end of DRAINING. That the evaluation comes before a retirement or flush, and is not one with the last
step of that, is the model's choice (log entry 42). A level raised by a retirement here is not in the FAULT notices posted
before it (log entry 33). -/
def Event.finish (ev : Event) : Event :=
  ((ev.evaluateIfCalled.afterReply.dealWithSections 8).endPlans).endDraining

end Sys2Proof.Machine
end

