-- ==== Sys2Proof/Machine/Samples.lean ====
section
/-! DEFINITION. One accepted sample (02_sample_intake, 04_the_monitor_verdict): the intake, the calculator, the
monitor, the action unit, the handover, and ECHO. -/

namespace Sys2Proof.Machine

/-! ## The intake's judgements -/

/-- Whether a sample is early: it has a last time, and the interval is below t_min (R23). -/
def isEarly (last : Option Nat) (now tMin : Nat) : Bool :=
  match last with
  | some t => now - t < tMin
  | none => false

/-- The samples counted as lost at a jump: k - 1 when k is above 1 (R28). -/
def samplesLost (last : Option Byte) (new : Byte) : Nat :=
  match last with
  | some n => (new - n).toNat - 1
  | none => 0

/-- Whether two readings differ by more than d_tol on some axis (R29). -/
def Position.farFrom (p q : Position) (tol : Nat) : Bool :=
  tol < (p.x - q.x).natAbs || tol < (p.y - q.y).natAbs || tol < (p.z - q.z).natAbs

/-- Whether a sample disagrees (R29). -/
def Sample.disagrees (s : Sample) (c : ArmConfig) : Bool :=
  match s.p2 with
  | some p2 => s.p1.farFrom p2 c.dTol
  | none => c.dualRequired

/-- The intake after a sample is recorded: the gap timer restarts with t_gap (R22, R24). -/
def Guard.recordSample (g : Guard) (x : Arm) (s : Sample) : Guard :=
  g.onArm x fun a => { a with intake := ⟨some s, some g.now, some s.sequence, .running, g.timerFor (g.cfg.arm x).tGap⟩ }

/-- The intake's part of an accepted sample (R22, R23, R28, R29, R32). -/
def Event.intake (ev : Event) (x : Arm) (s : Sample) : Event :=
  let g := ev.guard
  let c := g.cfg.arm x
  let old := (g.arm x).intake
  let early := isEarly old.lastTime g.now c.tMin
  let ev := (ev.setLive x .sampleEarly early).signal x .samplesAccepted 1
  let ev := if early then ev.signal x .samplesEarly 1 else ev
  let ev := ev.signal x .samplesLost (samplesLost old.lastSequence s.sequence)
  (ev.setLive x .disagree (s.disagrees c)).onGuard fun g => g.recordSample x s

/-- The calculator's part: its results recorded, its clamps signalled, NO_POSITION removed (R35). -/
def Event.calculate (ev : Event) (x : Arm) (s : Sample) : Event :=
  ((ev.onGuard fun g => g.onArm x fun a => { a with calculator := a.calculator.sample g.cfg x s }).signal x
    .velocityClamped s.velocity.clampCount).lower x .noPosition

/-- The cells of an arm's footprint, in row-major order. -/
def Calculator.cells (k : Calculator) : CellSet :=
  match k.footprint with
  | some r => r.cells
  | none => []

/-- The verdict of some entries from the point of view of one arm (R51, R52). -/
def verdictOf (x : Arm) (es : List Entry) : Verdict := es.foldl (fun v e => v.join (judgeEntry x e)) .empty

/-- The monitor's judgement, recorded as the last verdict (R50, R57). -/
def Event.judge (ev : Event) (x : Arm) : Event :=
  let (ev, es) := ev.readCells .monitor (ev.guard.arm x).calculator.cells
  ev.onGuard fun g => g.onArm x fun a => { a with verdict := verdictOf x es }

/-- The kinds of the last verdict latched (R57). -/
def Event.latchVerdict (ev : Event) (x : Arm) : Event :=
  let v := (ev.guard.arm x).verdict
  let ev := if v.reach then ev.raise x .reach else ev
  let ev := if v.intrusion then ev.raise x .intrusion else ev
  if v.fenceEntry then ev.raise x .fenceEntry else ev

/-- The entered flags set by an INSIDE sample (R58). -/
def Guard.setEntered (g : Guard) (x : Arm) : Guard :=
  let f := (g.arm x).calculator.footprint
  { g with claims := g.claims.map fun c =>
      if c.isHeld && c.arm = x && c.effective.any (covered f) then { c with entered := true } else c }

/-- The handover's part, by the zone before the sample (R59, R90, R94, R95). -/
def Event.handOver (ev : Event) (x : Arm) (previous : Zone) : Event :=
  let cleared : Bool := previous = .inside && (ev.guard.arm x).calculator.zone = .clear
  (if cleared then ev.complete x else ev).vacateProgress x

/-- The contents of ECHO after its result code (R31, 11.6). -/
def Guard.echoBytes (g : Guard) (x : Arm) (sequence : Byte) : List Byte :=
  let a := g.arm x
  [sequence, byte a.unit.level.code, byte a.calculator.zone.code, byte a.verdict.code, byte (g.heldCount x)]

/-- An accepted sample, dealt with whole up to its ECHO (R22, R60, R95, R123). An evaluation that it calls for without a
cell becoming FREE is made at the same place, before ECHO, by the model's choice (log entry 38). -/
def Event.acceptSample (ev : Event) (x : Arm) (s : Sample) : Event :=
  let previous := (ev.guard.arm x).calculator.zone
  let ev := ((((ev.intake x s).calculate x s).judge x).latchVerdict x).settleLevel x
  ((ev.onGuard fun g => g.setEntered x).handOver x previous).evaluateIfCalled

/-- SAMPLE of the right or the wrong length (R20, R22). -/
def Guard.serveSample (g : Guard) (x : Arm) (p : List Byte) : Event × Reply :=
  if !sampleLengthOk p then (g.event, ⟨.badLength, g.echoBytes x 0#8⟩)
  else
    let ev := g.event.acceptSample x (parseSample p)
    (ev, .ok (ev.guard.echoBytes x (parseSample p).sequence))

/-- SAMPLE in INIT: discarded, counted, and answered NOT_READY with its first payload byte (R21, R158). -/
def Guard.discardSample (g : Guard) (x : Arm) (p : List Byte) : Event × Reply :=
  ((g.onArm x fun a => { a with counters := { a.counters with discarded := sat32 (a.counters.discarded + 1) } }).event,
    ⟨.notReady, [p.getD 0 0#8, byte Level.halt.code, byte Zone.unknown.code, 0#8, 0#8]⟩)

end Sys2Proof.Machine
end

