-- ==== Sys2Proof/Machine/Serve.lean ====
section
/-! DEFINITION. The services of the supervisor's requests, one per kind: each answers the event so far and the reply it
forms. The mode is not INIT and the length is right (R158) when one is called. -/

namespace Sys2Proof.Machine

/-- A service that changes nothing. -/
def Guard.answer (g : Guard) (r : Reply) : Event × Reply := (g.event, r)

/-! ## CONFIGURE (R18, R149, R150) -/

/-- The clamped items, with the values stored, in the item layout. -/
def clampedBytes (items : List RawItem) : List Byte :=
  (items.filter fun r => r.stored ≠ r.value).flatMap fun r => [byte r.ident, byte r.armByte] ++ les32 r.stored

/-- The number of clamped items. -/
def clampedCount (items : List RawItem) : Nat := (items.filter fun r => r.stored ≠ r.value).length

/-- Every section configured under nc is retired: the section check of R4. -/
def Guard.noSectionFor (g : Guard) (c : ConfigSet) : Bool := sectionNumbers.all fun s => !c.configured s || g.isRetired s

/-- A change of grid geometry (R18, R47, R141): the fence layer and both vacate sets are emptied, every entry of the
store is written from the records, the footprints are placed anew, the scrub cursor is restarted. -/
def Guard.changeGeometry (g : Guard) (c : ConfigSet) : Guard :=
  let place (a : ArmState) : ArmState := { a with vacate := [], calculator := a.calculator.replace c }
  ({ g with cfg := c, fences := [], a := place g.a, b := place g.b }.reindex storeCells).restartScrub

/-- The level of an arm computed when its actions changed (R121). -/
def Event.actionsChanged (ev : Event) (old : ConfigSet) (x : Arm) : Event :=
  if (ev.guard.cfg.arm x).actions = (old.arm x).actions then ev else ev.settleLevel x

/-- The items of a CONFIGURE applied together (R150). -/
def Guard.applyConfig (g : Guard) (c : ConfigSet) : Event :=
  let g' := if g.cfg.sameGeometry c then { g with cfg := c } else g.changeGeometry c
  (g'.event.actionsChanged g.cfg .A).actionsChanged g.cfg .B

/-- CONFIGURE. -/
def Guard.serveConfigure (g : Guard) (p : List Byte) : Event × Reply :=
  if g.mode ≠ .setup then g.answer (.refuse .wrongMode)
  else
    let items := parseItems p
    match firstBadItem [] 0 items with
    | some i => g.answer (.refuseWith .range i)
    | none =>
      let c := items.foldl ConfigSet.apply g.cfg
      if !g.cfg.sameGeometry c && !g.claims.isEmpty then g.answer (.refuse .claimsPresent)
      else if g.cfg.nc ≠ c.nc ∧ g.noSectionFor c then
        g.answer (.refuseWith .invalidConfig StartCheck.sections.code)
      else
        (g.applyConfig c,
          .ok (byte (clampedCount items + flagBit (!g.cfg.sameGeometry c) 7) :: clampedBytes items))

/-! ## START and STOP (R151, R152) -/

/-- The first consistency check that fails. -/
def Guard.startCheck (g : Guard) : Option StartCheck :=
  let c := g.cfg
  if 32767 < c.x0 + (c.nc : Int) * c.pitch then some .xExtent
  else if 32767 < c.y0 + (c.nr : Int) * c.pitch then some .yExtent
  else if c.a.tGap ≤ c.a.tMin then some .windowA
  else if c.b.tGap ≤ c.b.tMin then some .windowB
  else if !sectionNumbers.any g.isActive then some .sections
  else none

/-- GUARD entered: the reply, MODE(GUARD, START), and an evaluation (R71). -/
def Guard.enterGuard (g : Guard) : Event × Reply :=
  (({ g with mode := .guarding }.event.post (.toHost (.mode .guarding .start))).callEvaluation true, .ok [])

/-- START. -/
def Guard.serveStart (g : Guard) : Event × Reply :=
  match g.mode with
  | .guarding => g.answer (.ok [])
  | .draining => g.enterGuard
  | _ =>
    match g.startCheck with
    | some check => g.answer (.refuseWith .invalidConfig check.code)
    | none => g.enterGuard

/-- STOP: the waiting PLAN claims are withdrawn, then the mode is DRAINING, or SETUP when no PLAN claim is left. -/
def Guard.serveStop (g : Guard) : Event × Reply :=
  if g.mode ≠ .guarding then g.answer (.ok [0#8, byte g.mode.code])
  else
    let ev := g.event.withdrawAll Claim.isPlan
    let m : Mode := if ev.guard.hasPlanClaim then .draining else .setup
    ((((ev.onGuard fun g => { g with mode := m }).post (.toHost (.mode m .stop))).callEvaluation true),
      .ok [byte (g.keysWhere fun c => c.isWaiting && c.isPlan).length, byte m.code])

/-! ## RESTART (R154, R118, R147) -/

/-- An arm after RESTART, but for its level: its counters are kept. -/
def ArmState.restarted (a : ArmState) : ArmState :=
  { ArmState.initial with
    counters := a.counters
    unit := { ActionUnit.initial with level := .hold, lines := a.unit.lines } }

/-- The changes of RESTART to the records, before the retry of the store. The level of NO_POSITION alone is HOLD. -/
def Guard.restarted (g : Guard) : Guard :=
  let g : Guard := { g with
    mode := .setup
    a := g.a.restarted
    b := g.b.restarted
    claims := []
    lastGranted := .B
    sections := g.sections.map fun t => { t with errors := 0 }
    poisoned := []
    leakTimer := g.timerFor (msSteps g.cfg.tLeak) }
  ((g.followLines .A).followLines .B).restartScrub

/-- The FAULT of NO_POSITION at RESTART: an assertion for an arm whose NO_POSITION was removed (R118). -/
def Event.assertNoPosition (ev : Event) (old : Guard) (x : Arm) : Event :=
  if (old.arm x).unit.sources.noPosition then ev
  else { ev with changes := ev.changes ++ [⟨x, .noPosition, .asserted⟩] }

/-- RESTART. -/
def Guard.serveRestart (g : Guard) : Event × Reply :=
  let ev := g.restarted.event.post .emptyArmQueues
  let ev := ((ev.assertNoPosition g .A).assertNoPosition g .B).postFaults
  ((ev.rewriteAll .restart storeCells).post (.toHost (.mode .setup .restart)), .ok [])

/-! ## FENCE and UNFENCE (R15, R16) -/

/-- Cells join the fence layer and leave every reservation. -/
def Guard.fenceCells (g : Guard) (cells : CellSet) : Guard :=
  let g : Guard := { g with
    fences := unionCells g.fences cells
    claims := g.claims.map fun c => { c with reserved := minusCells c.reserved cells } }
  g.reindex cells

/-- Cells leave the fence layer. -/
def Guard.unfenceCells (g : Guard) (cells : CellSet) : Guard :=
  { g with fences := minusCells g.fences cells }.reindex cells

/-- The waiting claims follow a change of some cells' fences (R13). -/
def Event.fencesChanged (ev : Event) (cells : CellSet) : Event :=
  { ev with touched := unionCells ev.touched cells }.settle

/-- FENCE's change; a reservation removed calls for an evaluation. -/
def Event.addFences (ev : Event) (cells : CellSet) : Event :=
  ((ev.callEvaluation (ev.guard.claims.any fun k => meets k.reserved cells)).onGuard fun g =>
    g.fenceCells cells).fencesChanged cells

/-- UNFENCE's change; a fence removed calls for an evaluation. -/
def Event.dropFences (ev : Event) (cells : CellSet) : Event :=
  ((ev.onGuard fun g => g.unfenceCells cells).callEvaluation (!cells.isEmpty)).fencesChanged cells

/-- How many of the cells an arm owns, as the store has them. -/
def Guard.countOwned (g : Guard) (cells : CellSet) : Nat := (cells.filter fun c => (g.entryOf c).owner.isSome).length

/-- The three counts of FENCE and UNFENCE. -/
def threeCounts (a b c : Nat) : Reply := .ok (le16 a ++ le16 b ++ le16 c)

/-- FENCE: every cell is read, then those not in the fence layer join it. -/
def Guard.serveFence (g : Guard) (p : List Byte) : Event × Reply :=
  match shapeAt g.cfg p 0 with
  | none => g.answer (.refuse .range)
  | some s =>
    let cells := s.cells g.cfg
    let ev := (g.event.readCells .fence cells).1
    let fresh := minusCells cells ev.guard.fences
    let nPending := ev.guard.countOwned fresh
    (ev.addFences fresh, threeCounts (fresh.length - nPending) nPending (cells.length - fresh.length))

/-- UNFENCE: every cell is read, then those in the fence layer leave it. -/
def Guard.serveUnfence (g : Guard) (p : List Byte) : Event × Reply :=
  match shapeAt g.cfg p 0 with
  | none => g.answer (.refuse .range)
  | some s =>
    let cells := s.cells g.cfg
    let ev := (g.event.readCells .fence cells).1
    let fenced := cells.filter fun c => c ∈ ev.guard.fences
    let nCancelled := ev.guard.countOwned fenced
    (ev.dropFences fenced, threeCounts (fenced.length - nCancelled) nCancelled (cells.length - fenced.length))

/-! ## LOAD_PLAN and DROP_PLAN (R106, R107, R114, R115) -/

/-- The slot AUTO chooses, when there is one. -/
def ArmState.autoSlot (a : ArmState) : Option SlotIx :=
  match a.slot0, a.slot1 with
  | .empty, _ => some .slot0
  | _, .empty => some .slot1
  | .loaded _, _ => some .slot0
  | _, .loaded _ => some .slot1
  | _, _ => none

/-- Test 3 of R106: the slot used, or the refusal. -/
def ArmState.chooseSlot (a : ArmState) : SlotChoice → Except Result SlotIx
  | .auto =>
    match a.autoSlot with
    | some i => .ok i
    | none => .error .slotFinishing
  | .named i =>
    match a.slot i with
    | .active _ => .error .slotActive
    | .finishing _ => .error .slotFinishing
    | _ => .ok i

/-- An entry as stored: a priority of 8..15 is stored as 7 (R106). -/
def PlanEntry.stored (e : PlanEntry) : PlanEntry := { e with priority := min 7 e.priority }

/-- The clamped entries, bit i for entry index i. -/
def clampedEntries (es : List PlanEntry) : Nat :=
  (List.range es.length).foldl (fun n i =>
    n + flagBit (match es[i]? with
      | some e => 7 < e.priority
      | none => false) i) 0

/-- A plan with nothing issued (R107). -/
def newPlan (planId passes : Nat) (es : List PlanEntry) : Plan where
  planId := planId
  passes := passes
  entries := es
  cursor := 0
  passesCompleted := 0
  issued := 0
  picked := 0
  skipped := 0
  missed := 0
  endReason := none

/-- LOAD_PLAN. -/
def Guard.serveLoadPlan (g : Guard) (p : List Byte) : Event × Reply :=
  let n := u8 p 4
  match armOf (u8 p 0 % 16), slotChoiceOf (u8 p 0 / 16) with
  | some x, some choice =>
    if n = 0 ∨ 16 < n then g.answer (.refuse .range)
    else
      match parsePlanEntries g.cfg p n 0 with
      | .error i => g.answer (.refuseWith .range i)
      | .ok es =>
        match (g.arm x).chooseSlot choice with
        | .error r => g.answer (.refuse r)
        | .ok i =>
          let becomesActive := (g.arm x).activePlan.isNone
          let discarded := ((g.arm x).slot i).isLoaded
          let plan := newPlan (u16 p 1) (u8 p 3) (es.map PlanEntry.stored)
          ((g.onArm x fun a => a.setSlot i (if becomesActive then .active plan else .loaded plan)).event,
            .ok ([byte i.code, byte (flagBit becomesActive 0 + flagBit discarded 1)] ++ le16 (clampedEntries es)))
  | _, _ => g.answer (.refuse .range)

/-- Whether a claim comes from a plan slot of an arm. -/
def Claim.fromSlot (c : Claim) (x : Arm) (i : SlotIx) : Bool :=
  c.arm = x && (match c.origin with
    | .plan j _ => j = i
    | .supervisor => false)

/-- DROP_PLAN naming ACTIVE (R114): the slot's PLAN_END, when it is empty of claims, comes before the evaluation. -/
def Guard.dropActive (g : Guard) (x : Arm) : Event × Reply :=
  match (g.arm x).activePlan with
  | none => g.answer (.refuse .notFound)
  | some (i, p) =>
    let withdrawn := (g.keysWhere fun c => c.isWaiting && c.fromSlot x i).length
    let activated := ((g.arm x).slot i.other).isLoaded
    let ev := g.event.withdrawAll fun c => c.fromSlot x i
    let ev := ev.onGuard fun g => g.onArm x fun a =>
      match (a.slot i).plan? with
      | some q => a.finishSlot i q .dropped
      | none => a
    let ev := { ev with judged := (x, i) :: ev.judged }.endPlans
    let emptied : Bool := (ev.guard.arm x).slot i = .empty
    (ev.callEvaluation true,
      .ok (le16 p.planId ++ [byte withdrawn, byte (flagBit emptied 0 + flagBit activated 1)]))

/-- DROP_PLAN naming LOADED (R115). -/
def Guard.dropLoaded (g : Guard) (x : Arm) : Event × Reply :=
  match (g.arm x).loadedPlan with
  | none => g.answer (.refuse .notFound)
  | some (i, p) => ((g.onArm x fun a => a.setSlot i .empty).event, .ok (le16 p.planId ++ [0#8, 1#8]))

/-- DROP_PLAN. -/
def Guard.serveDropPlan (g : Guard) (p : List Byte) : Event × Reply :=
  match armOf (u8 p 0), u8 p 1 with
  | some x, 0 => g.dropActive x
  | some x, 1 => g.dropLoaded x
  | _, _ => g.answer (.refuse .range)

/-! ## CLAIM_FOR and REVOKE (R69, R98 to R100) -/

/-- CLAIM_FOR. -/
def Guard.serveClaimFor (g : Guard) (p : List Byte) : Event × Reply :=
  match armOf (u8 p 0), shapeAt g.cfg p 1 with
  | some x, some s =>
    if 2 ≤ g.claimCount x then g.answer (.refuse .noRoom)
    else
      let cells := s.cells g.cfg
      let (ev, kept) := g.event.form cells
      if kept.isEmpty then (ev, .refuse .empty)
      else
        let c := ev.guard.newClaim x .supervisor s kept (cells.length - kept.length) 7
        ((ev.onGuard fun g => g.addClaim c).callEvaluation true,
          .ok ([c.number] ++ le16 kept.length ++ le16 c.excluded))
  | _, _ => g.answer (.refuse .range)

/-- REVOKE: every claim of the arm ends, older first; REVOKED is latched for an arm that is INSIDE; the arbiter
evaluates whatever became of the cells. -/
def Guard.serveRevoke (g : Guard) (p : List Byte) : Event × Reply :=
  match armOf (u8 p 0) with
  | none => g.answer (.refuse .range)
  | some x =>
    let (ev, n) := g.event.endClaims (g.keysWhere fun c => c.arm = x)
    let latched : Bool := (ev.guard.arm x).calculator.zone = .inside
    let ev := if latched then (ev.raise x .revoked).settleLevel x else ev
    (ev.callEvaluation true, .ok [byte n.revoked, byte n.withdrawn, byte (flagBit latched 0)])

/-! ## CLEAR_FAULTS (R131) -/

/-- The named latched sources that are latched. -/
def Sources.namedBy (s : Sources) (mask : Nat) (src : Source) : Bool := maskNames mask src && src.isLatched && s.has src

/-- CLEAR_FAULTS. -/
def Guard.serveClearFaults (g : Guard) (p : List Byte) : Event × Reply :=
  match armOf (u8 p 0) with
  | none => g.answer (.refuse .range)
  | some x =>
    let a := g.arm x
    let named := a.unit.sources.namedBy (u16 p 1)
    let cleared (src : Source) : Bool := named src && clearable (g.cfg.arm x) a src
    let kept (src : Source) : Bool := named src && !clearable (g.cfg.arm x) a src
    let ev := ((sourceList.filter cleared).foldl (fun ev src => ev.lower x src) g.event).settleLevel x
    (ev, .ok ([byte (armCode x)] ++ le16 (sourceMask cleared) ++ le16 (sourceMask kept)
      ++ [byte (ev.guard.arm x).unit.level.code]))

/-! ## Reports (R167 to R169) -/

/-- An arm's five bytes of GET_STATUS. -/
def ArmState.statusBytes (a : ArmState) : List Byte :=
  [byte a.calculator.zone.code, byte a.unit.level.code] ++ le16 (sourceMask a.unit.sources.has)
    ++ [byte (match a.unit.sources.escalated with
      | some e => e.level.code
      | none => 0)]

/-- A claim record of GET_STATUS. -/
def Claim.statusBytes (c : Claim) : List Byte :=
  [byte (armCode c.arm), c.number,
    byte (flagBit c.isHeld 0 + flagBit (!c.isPlan) 1
      + (match c.origin with
        | .plan i _ => flagBit (i = .slot1) 2
        | .supervisor => 0)
      + flagBit (c.reserving ≠ .no) 3),
    byte c.origin.entryIndex, byte c.priority]

/-- A slot record of GET_STATUS. -/
def Slot.statusBytes (s : Slot) : List Byte :=
  byte s.code :: match s.plan? with
    | none => List.replicate 11 0#8
    | some p => le16 p.planId ++ [byte p.cursor] ++ le16 p.passesCompleted ++ le16 p.picked ++ le16 p.skipped
        ++ le16 p.missed

/-- A section's state code: NOT_CONFIGURED even if it was retired while configured. -/
def Guard.sectionCode (g : Guard) (s : Nat) : Nat := if !g.cfg.configured s then 2 else if g.isRetired s then 1 else 0

/-- How many of the entries satisfy `p`, as two bytes. -/
def countBytes (es : List Entry) (p : Entry → Bool) : List Byte := le16 (es.filter p).length

/-- The six cell totals. -/
def totalsBytes (es : List Entry) : List Byte :=
  countBytes es Entry.isFree
    ++ countBytes es (fun e => e.owner = some .A && !e.vacating) ++ countBytes es (fun e => e.owner = some .B && !e.vacating)
    ++ countBytes es (fun e => e.owner = some .A && e.vacating) ++ countBytes es (fun e => e.owner = some .B && e.vacating)
    ++ countBytes es Entry.isFenced

/-- The parts of GET_STATUS that stand before its reads (log entry 12). -/
def Guard.statusHead (g : Guard) : List Byte :=
  [byte g.mode.code] ++ g.a.statusBytes ++ g.b.statusBytes ++ [byte g.claims.length]
    ++ (g.claims.take 4).flatMap Claim.statusBytes ++ List.replicate (20 - 5 * (g.claims.take 4).length) 0#8
    ++ g.a.slot0.statusBytes ++ g.a.slot1.statusBytes ++ g.b.slot0.statusBytes ++ g.b.slot1.statusBytes

/-- The lost counts of the three notice queues. -/
def Link.lostBytes (l : Link) : List Byte := le16 l.sup.lost ++ le16 l.a.lost ++ le16 l.b.lost

/-- GET_STATUS. -/
def Guard.serveGetStatus (g : Guard) (l : Link) : Event × Reply :=
  let (ev, es) := g.event.readCells .report g.cfg.gridCells
  let secs := sectionNumbers.flatMap fun s => [byte (ev.guard.sectionCode s), byte (ev.guard.sections.get s).errors]
  (ev, .ok (g.statusHead ++ secs ++ totalsBytes es ++ l.lostBytes))

/-- GET_ROW. -/
def Guard.serveGetRow (g : Guard) (p : List Byte) : Event × Reply :=
  let r := u8 p 0
  if g.cfg.nr ≤ r then g.answer (.refuse .range)
  else
    let (ev, es) := g.event.readCells .report ((List.range g.cfg.nc).map fun c => ⟨c, r⟩)
    (ev, .ok (byte r :: es.map fun e => byte e.code))

/-- One arm's items of GET_COUNTERS. -/
def ArmCounters.bytes (c : ArmCounters) : List Byte :=
  (c.selectable.toList.flatMap fun k => byte k.selection.code :: le32 k.value)
    ++ le32 c.waitOther ++ le32 c.waitVacating ++ le32 c.waitReserved ++ le32 c.discarded

/-- One port's items of GET_COUNTERS. -/
def PortState.counterBytes (p : PortState) : List Byte := le32 p.badCheck ++ le32 p.abandoned ++ le32 p.overrun

/-- One section's items of GET_COUNTERS. -/
def SectionState.counterBytes (t : SectionState) : List Byte :=
  le32 t.corrected ++ le32 t.uncorrectable ++ le32 t.poisonings

/-- GET_COUNTERS. -/
def Guard.serveGetCounters (g : Guard) (l : Link) : Event × Reply :=
  g.answer (.ok (g.a.counters.bytes ++ g.b.counters.bytes
    ++ l.sup.port.counterBytes ++ l.a.port.counterBytes ++ l.b.port.counterBytes
    ++ le32 g.scrubPasses ++ g.sections.toList.flatMap SectionState.counterBytes ++ l.lostBytes))

/-! ## SET_COUNTERS (R165) -/

/-- A counter byte that is refused: 16..254. -/
def badSelection (n : Nat) : Bool := 16 ≤ n && n ≤ 254

/-- A counter under its byte: 255 leaves it, a selection zeroes it. -/
def Counter.select (k : Counter) (n : Nat) : Counter :=
  match countEventOf n with
  | some e => ⟨e, 0⟩
  | none => k

/-- SET_COUNTERS: the arm is tested before the counter bytes, so that a request bad in both is answered RANGE alone (log
entry 35). -/
def Guard.serveSetCounters (g : Guard) (p : List Byte) : Event × Reply :=
  match armOf (u8 p 0) with
  | none => g.answer (.refuse .range)
  | some x =>
    match sectionNumbers.find? fun i => badSelection (u8 p (i + 1)) with
    | some i => g.answer (.refuseWith .range i)
    | none =>
      let q := (g.arm x).counters.selectable
      let q' : Four Counter := ⟨q.f0.select (u8 p 1), q.f1.select (u8 p 2), q.f2.select (u8 p 3), q.f3.select (u8 p 4)⟩
      ((g.onArm x fun a => { a with counters := { a.counters with selectable := q' } }).event,
        .ok (q'.toList.map fun k => byte k.selection.code))

/-! ## By kind -/

/-- A supervisor request served (R158 tests 2 to 4). -/
def Guard.serve (g : Guard) (l : Link) (kind : Byte) (p : List Byte) : Event × Reply :=
  if g.mode = .init then g.answer (.refuse .notReady)
  else if !supervisorLengthOk kind.toNat p then g.answer (.refuse .badLength)
  else
    match kind.toNat with
    | 0x01 => g.serveConfigure p
    | 0x02 => g.serveStart
    | 0x03 => g.serveStop
    | 0x04 => g.serveRestart
    | 0x05 => g.serveFence p
    | 0x06 => g.serveUnfence p
    | 0x07 => g.serveLoadPlan p
    | 0x08 => g.serveDropPlan p
    | 0x09 => g.serveClaimFor p
    | 0x0A => g.serveRevoke p
    | 0x0B => g.serveClearFaults p
    | 0x0C => g.serveGetStatus l
    | 0x0D => g.serveGetRow p
    | 0x0E => g.serveSetCounters p
    | 0x0F => g.serveGetCounters l
    | _ => g.answer (.refuse .unknownKind)

end Sys2Proof.Machine
end

