-- ==== Sys2Proof/Machine/ArmPort.lean ====
section
/-! DEFINITION. The services of an arm port's requests beside SAMPLE: REQUEST, SKIP and RELEASE (05_claims R66 to R68,
07_pick_plans R108, R113, 06_release R92, R93). -/

namespace Sys2Proof.Machine

/-! ## REQUEST -/

/-- REQUEST past its first four tests: the entry at the cursor of the ACTIVE slot is issued, as a claim when its
effective set is not empty, else as missed (R67, R68). -/
def Guard.requestEntry (g : Guard) (x : Arm) (i : SlotIx) (p : Plan) (e : PlanEntry) : Event × Reply :=
  let cells := e.shape.cells g.cfg
  let (ev, kept) := g.event.form cells
  match ((ev.guard.arm x).slot i).plan? with
  | none => (ev, .refuse .noPlan)
  | some q =>
    let ev := ev.issue x i q
    if kept.isEmpty then (ev.tally x i .missed, .refuseWith .empty p.cursor)
    else
      let c := ev.guard.newClaim x (.plan i p.cursor) e.shape kept (cells.length - kept.length) e.priority
      ((ev.onGuard fun g => g.addClaim c).callEvaluation true, .ok [c.number, byte p.cursor])

/-- REQUEST (R66): the five conditions in their order. -/
def Guard.serveRequest (g : Guard) (x : Arm) : Event × Reply :=
  if g.mode ≠ .guarding then g.answer (.refuse .wrongMode)
  else if (g.arm x).unit.level.atLeastHold then g.answer (.refuse .stopped)
  else
    match (g.arm x).activePlan with
    | none => g.answer (.refuse .noPlan)
    | some (i, p) =>
      if 2 ≤ g.claimCount x then g.answer (.refuse .noRoom)
      else
        match p.entries[p.cursor]? with
        | none => g.answer (.refuse .noPlan)
        | some e => g.requestEntry x i p e

/-! ## SKIP -/

/-- SKIP (R113): the entry at the cursor is issued and counted as skipped. -/
def Guard.serveSkip (g : Guard) (x : Arm) : Event × Reply :=
  if g.mode ≠ .guarding then g.answer (.refuse .wrongMode)
  else
    match (g.arm x).activePlan with
    | none => g.answer (.refuse .noPlan)
    | some (i, p) => ((g.event.issue x i p).tally x i .skipped, .ok (le16 p.planId ++ [byte p.cursor]))

/-! ## RELEASE -/

/-- The outcome RELEASE names. -/
def releaseOutcome : Nat → Option EntryOutcome
  | 0 => some .picked
  | 1 => some .missed
  | _ => none

/-- RELEASE (R92, R93). -/
def Guard.serveRelease (g : Guard) (x : Arm) (p : List Byte) : Event × Reply :=
  let number := p.getD 0 0#8
  match releaseOutcome (u8 p 1) with
  | none => g.answer (.refuse .range)
  | some o =>
    match (g.claim? ⟨x, number⟩).filter Claim.isHeld with
    | none => g.answer (.refuse .notFound)
    | some c => (g.event.endHeld c.key o, .ok [number])

/-! ## By kind -/

/-- An arm request served (R158 tests 2 to 4). -/
def Guard.serveArm (g : Guard) (x : Arm) (kind : Byte) (p : List Byte) : Event × Reply :=
  match kind.toNat with
  | 0x20 => if g.mode = .init then g.discardSample x p else g.serveSample x p
  | 0x21 =>
    if g.mode = .init then g.answer (.refuse .notReady)
    else if p.length ≠ 0 then g.answer (.refuse .badLength) else g.serveRequest x
  | 0x22 =>
    if g.mode = .init then g.answer (.refuse .notReady)
    else if p.length ≠ 0 then g.answer (.refuse .badLength) else g.serveSkip x
  | _ =>
    if g.mode = .init then g.answer (.refuse .notReady)
    else if p.length ≠ 2 then g.answer (.refuse .badLength) else g.serveRelease x p

end Sys2Proof.Machine
end

