-- ==== Sys2Proof/Machine/Links.lean ====
section
/-! DEFINITION. The link controller (11_message_links): transmit arbiters, notice queues, arrivals and their dispatch,
the supervisor's queue, reply slot and refusal store. -/

namespace Sys2Proof.Machine

/-! ## Capacities -/

/-- The supervisor request queue (R159). -/
def requestCapacity : Nat := 4
/-- The refusal store (R159). -/
def refusalCapacity : Nat := 4
/-- An arm reply queue (R160). -/
def replyCapacity : Nat := 4
/-- The supervisor notice queue (R163). -/
def hostNoticeCapacity : Nat := 32
/-- An arm notice queue (R163). -/
def armNoticeCapacity : Nat := 8

/-! ## The transmit arbiters (R162) -/

/-- A port sends a frame. -/
def PortState.send (p : PortState) (reply : Bool) (f : Frame) : PortState := { p with tx := some ⟨reply, f.bytes⟩ }

/-- The supervisor port's arbiter: when the transmitter is idle, the reply in the slot first, else the notice at the
head. The reply stays in its slot while it is sent (R159). -/
def SupervisorLink.choose (k : SupervisorLink) : SupervisorLink :=
  match k.port.tx, k.slot, k.notices with
  | some _, _, _ => k
  | none, some f, _ => { k with port := k.port.send true f }
  | none, none, n :: rest => { k with port := k.port.send false n.frame, notices := rest }
  | none, none, [] => k

/-- An arm port's arbiter: the oldest reply first, else the notice at the head; each leaves its queue (R160, R163). -/
def ArmLink.choose (k : ArmLink) : ArmLink :=
  match k.port.tx, k.replies, k.notices with
  | some _, _, _ => k
  | none, f :: rest, _ => { k with port := k.port.send true f, replies := rest }
  | none, [], n :: rest => { k with port := k.port.send false n.frame, notices := rest }
  | none, [], [] => k

/-! ## Notices (R163) -/

/-- A notice posted to the supervisor queue: it joins the tail, or is lost at a full queue. -/
def SupervisorLink.post (k : SupervisorLink) (n : Notice) : SupervisorLink :=
  if k.notices.length < hostNoticeCapacity then { k with notices := k.notices ++ [n] }.choose
  else { k with lost := sat16 (k.lost + 1) }

/-- A notice posted to an arm queue. -/
def ArmLink.post (k : ArmLink) (n : ArmNotice) : ArmLink :=
  if k.notices.length < armNoticeCapacity then { k with notices := k.notices ++ [n] }.choose
  else { k with lost := sat16 (k.lost + 1) }

/-- One notice of an event on its way to its queue. -/
def Link.deliverOne (l : Link) : Posted → Link
  | .toHost n => { l with sup := l.sup.post n }
  | .toArm x n => l.onArm x fun k => k.post n
  | .emptyArmQueues => { l with a := { l.a with notices := [] }, b := { l.b with notices := [] } }

/-- The notices of an event, in the order of posting. -/
def Link.deliver (l : Link) (ps : List Posted) : Link := ps.foldl Link.deliverOne l

/-- An event without a reply, done: its end, and its notices. -/
def State.conclude (s : State) (ev : Event) : State :=
  let ev := ev.finish
  { s with guard := ev.guard, link := s.link.deliver ev.out }

/-- The start of an event that forms no reply (R137). -/
def Guard.quietEvent (g : Guard) : Event := { g.event with replied := true }

/-! ## The supervisor port (R158, R159) -/

/-- The kinds the supervisor port accepts as requests. -/
def isSupervisorKind (kind : Byte) : Bool := 0x01 ≤ kind.toNat && kind.toNat ≤ 0x0F

/-- A reply placed in the empty reply slot; it starts at once when the transmitter is idle (R162). -/
def SupervisorLink.place (k : SupervisorLink) (f : Frame) : SupervisorLink := { k with slot := some f }.choose

/-- The supervisor port with its link state changed. -/
def State.onSup (s : State) (f : SupervisorLink → SupervisorLink) : State := { s with link := { s.link with sup := f s.link.sup } }

/-- One arm port with its link state changed. -/
def State.onArmLink (s : State) (x : Arm) (f : ArmLink → ArmLink) : State := { s with link := s.link.onArm x f }

/-- A supervisor request served: its reply is placed, then the notices of its event (R159, R162). -/
def State.serveSupervisor (s : State) (f : Frame) : State :=
  let (ev, r) := s.guard.serve s.link f.kind f.payload
  (s.onSup fun k => k.place (replyFrame f.kind f.tag r)).conclude ev

/-- Slot, queue and refusal store are all empty (R159). -/
def SupervisorLink.isIdle (k : SupervisorLink) : Bool := k.slot.isNone && k.queue.isEmpty && k.refusals.isEmpty

/-- A frame the port loses. -/
def PortState.overrunOne (p : PortState) : PortState := { p with overrun := sat32 (p.overrun + 1) }

/-- A reply to a frame refused at its arrival: into the slot, into the refusal store, or lost (R159). -/
def SupervisorLink.refuse (k : SupervisorLink) (f : Frame) : SupervisorLink :=
  if k.isIdle then k.place f
  else if k.refusals.length < refusalCapacity then
    { k with refusals := k.refusals ++ [⟨f, k.queue.length⟩] }
  else { k with port := k.port.overrunOne }

/-- A good frame arrives on the supervisor port (R157, R158, R159). -/
def State.supervisorArrival (s : State) (f : Frame) : State :=
  let s := s.onSup fun k => { k with port := { k.port with rx := .hunt } }
  if !isSupervisorKind f.kind then s.onSup fun k => k.refuse (unknownKindFrame f.kind f.tag)
  else if s.guard.mode = .init then s.onSup fun k => k.refuse (replyFrame f.kind f.tag (.refuse .notReady))
  else if requestCapacity ≤ s.link.sup.queue.length then s.onSup fun k => { k with port := k.port.overrunOne }
  else if s.link.sup.isIdle then s.serveSupervisor f
  else s.onSup fun k => { k with queue := k.queue ++ [f] }

/-- One held refusal further on: a request that stood before it has left the queue. -/
def HeldRefusal.step (r : HeldRefusal) : HeldRefusal := { r with ahead := r.ahead - 1 }

/-- What comes next while the slot is empty: of the head of the queue and the oldest held refusal, the earlier
arrival (R159). -/
def State.serveNext (s : State) : State :=
  let k := s.link.sup
  if k.slot.isSome then s
  else
    match k.refusals, k.queue with
    | [], [] => s
    | [], f :: fs => (s.onSup fun k => { k with queue := fs }).serveSupervisor f
    | r :: rs, [] => s.onSup fun k => { k with refusals := rs }.place r.reply
    | r :: rs, f :: fs =>
      if r.ahead = 0 then s.onSup fun k => { k with refusals := rs }.place r.reply
      else (s.onSup fun k => { k with queue := fs, refusals := k.refusals.map HeldRefusal.step }).serveSupervisor f

/-- The end of the frame under transmission: a reply empties the slot with it (R159). -/
def SupervisorLink.endSending (k : SupervisorLink) : SupervisorLink :=
  match k.port.tx with
  | none => k
  | some f => { k with port := { k.port with tx := none }, slot := if f.reply then none else k.slot }

/-- The supervisor port's frame ends: the arbiter chooses, and only then is the next request served (R162). -/
def State.endSupervisorFrame (s : State) : State :=
  if s.link.sup.port.tx.isNone then s else (s.onSup fun k => k.endSending.choose).serveNext

/-! ## The arm ports (R158, R160) -/

/-- A reply joins an arm's reply queue. -/
def ArmLink.reply (k : ArmLink) (f : Frame) : ArmLink := { k with replies := k.replies ++ [f] }.choose

/-- A good frame arrives on an arm port: lost at a full reply queue, else served and answered at once. A frame lost there is
counted as an overrun alone, a SAMPLE in INIT too (R21, R160; log entry 11). -/
def State.armArrival (s : State) (x : Arm) (f : Frame) : State :=
  let s := s.onArmLink x fun k => { k with port := { k.port with rx := .hunt } }
  if replyCapacity ≤ (s.link.arm x).replies.length then
    s.onArmLink x fun k => { k with port := k.port.overrunOne }
  else if !isArmKind f.kind then s.onArmLink x fun k => k.reply (unknownKindFrame f.kind f.tag)
  else
    let (ev, r) := s.guard.serveArm x f.kind f.payload
    (s.onArmLink x fun k => k.reply (replyFrame f.kind f.tag r)).conclude ev

/-- An arm port's frame ends: the arbiter chooses the next one. -/
def ArmLink.endFrame (k : ArmLink) : ArmLink := { k with port := { k.port with tx := none } }.choose

/-! ## Characters (R155, R157) -/

/-- One port changed. -/
def State.onPort (s : State) (p : Port) (f : PortState → PortState) : State :=
  match p with
  | .supervisor => s.onSup fun k => { k with port := f k.port }
  | .arm x => s.onArmLink x fun k => { k with port := f k.port }

/-- One port. -/
def Link.port (l : Link) : Port → PortState
  | .supervisor => l.sup.port
  | .arm x => (l.arm x).port

/-- A good frame handed to dispatch. -/
def State.arrival (s : State) (p : Port) (f : Frame) : State :=
  match p with
  | .supervisor => s.supervisorArrival f
  | .arm x => s.armArrival x f

/-- What a character brought about, done. -/
def State.received (s : State) (p : Port) : RxEvent → State
  | .none => s
  | .abandoned => s.onPort p fun k => { k with abandoned := sat32 (k.abandoned + 1) }
  | .badCheck => s.onPort p fun k => { k with badCheck := sat32 (k.badCheck + 1) }
  | .frame f => s.arrival p f

/-- One character at a port. -/
def State.character (s : State) (p : Port) (c : Character) : State :=
  let (rx, e) := (s.link.port p).rx.accept c
  (s.onPort p fun k => { k with rx := rx }).received p e

/-- A run of characters at a port. -/
def State.characters (s : State) (p : Port) (cs : List Character) : State := cs.foldl (fun s c => s.character p c) s

end Sys2Proof.Machine
end

