-- ==== Sys2Proof/Machine/Power.lean ====
section
/-! DEFINITION. The meanings of the supply and line commands: POWER_ON, INIT_END, POWER_LOSS, PERMIT_LINE_SHORTED
(10_modes R148, 08_fault_sources R135), and what every other command needs: power. -/

namespace Sys2Proof.Machine

/-- A command's effect when the logic supply stands; without power nothing acts (log entry 8). -/
def State.whenPowered (s : State) (f : State → State) : Host.Outcome State Fault Refusal :=
  .next (if s.guard.powered then f s else s)

/-! ## POWER_ON -/

/-- Power applied (R148): every item at its power-on value, VPERM present (log entry 9). The store's findings to come are the
environment's and are kept, as is the queue of commands (log entries 2, 8). -/
def State.powerOn (s : State) : State :=
  { s with
    guard := { Guard.initial with findings := s.guard.findings, reads := s.guard.reads }
    link := .initial }

/-- POWER_ON (R148). -/
def execPowerOn (s : State) : Host.Outcome State Fault Refusal := .next s.powerOn

/-! ## INIT_END -/

/-- Both levels computed from the sources at the end of INIT, a fall from HALT that starts no timer (R118). -/
def Guard.levelsFromSources (g : Guard) : Guard :=
  let g := g.changeLevel .A (g.levelFor .A)
  g.changeLevel .B (g.levelFor .B)

/-- The end of INIT: SETUP, the levels, the lines given back to them unless VPERM was lost since power-on (R135, log entry
9), the leak timer and the first pass of the scrub. -/
def Guard.leaveInit (g : Guard) : Guard :=
  ({ g with mode := .setup, linesCut := !g.permitSupply, leakTimer := g.timerFor (msSteps g.cfg.tLeak) }.levelsFromSources).restartScrub

/-- INIT's work on the store and its end, as one event (R147, R148). That every verify is made, and its POISONED posted, at
the moment INIT ends is the model's choice (log entry 43). -/
def Guard.endInit (g : Guard) : Event :=
  ((g.quietEvent.rewriteAll .init storeCells).onGuard Guard.leaveInit).post (.toHost (.mode .setup .powerOn))

/-- INIT_END (R148): it happens in INIT alone. -/
def execInitEnd (s : State) : Host.Outcome State Fault Refusal :=
  s.whenPowered fun s => if s.guard.mode = .init then s.conclude s.guard.endInit else s

/-! ## POWER_LOSS -/

/-- Every permit line dropped and kept dropped until power-on has ended INIT (R135). -/
def Guard.cutLines (g : Guard) : Guard := ({ g with linesCut := true }.followLines .A).followLines .B

/-- POWER_LOSS (R135): the logic supply takes the guard itself down, the permit supply its lines alone. VPERM stays
absent until the next POWER_ON (log entry 9). -/
def execPowerLoss (supply : Supply) (s : State) : Host.Outcome State Fault Refusal :=
  match supply with
  | .permit => .next { s with guard := { s.guard.cutLines with permitSupply := false } }
  | .logic => .next { s with guard := { s.guard.cutLines with powered := false } }

/-! ## PERMIT_LINE_SHORTED -/

/-- A line shorted to PGND: a given one is limited, or turns itself off while it overheats; a dropped one drives
nothing (R135, log entry 10). -/
def PermitLine.shorted (p : PermitLine) (overheats : Bool) : PermitLine :=
  if p.given then { p with short := if overheats then .off else .limited } else p

/-- PERMIT_LINE_SHORTED (R135): the guard does not sense it, and the level is unchanged. -/
def execPermitLineShorted (x : Arm) (line : PermitName) (overheats : Bool) (s : State) :
    Host.Outcome State Fault Refusal :=
  s.whenPowered fun s =>
    { s with guard := s.guard.onUnit x fun u => { u with lines := u.lines.on line fun p => p.shorted overheats } }

end Sys2Proof.Machine
end

