-- ==== Sys2Proof/Machine/ArmRequests.lean ====
section
/-! DEFINITION. The meanings of the arms' requests: each row is the arrival of a good frame of its kind at the arm's
port (R158, R160; log entry 4). The services are in Machine/Samples.lean and Machine/ArmPort.lean. -/

namespace Sys2Proof.Machine

/-- SAMPLE (R22), kind 0x20. -/
def execSample (x : Arm) (tag : Byte) (payload : List Byte) (s : State) : Host.Outcome State Fault Refusal :=
  s.whenPowered fun s => s.armArrival x ⟨0x20#8, tag, payload⟩

/-- REQUEST (R66, R67), kind 0x21. -/
def execRequest (x : Arm) (tag : Byte) (payload : List Byte) (s : State) : Host.Outcome State Fault Refusal :=
  s.whenPowered fun s => s.armArrival x ⟨0x21#8, tag, payload⟩

/-- SKIP (R113), kind 0x22. -/
def execSkip (x : Arm) (tag : Byte) (payload : List Byte) (s : State) : Host.Outcome State Fault Refusal :=
  s.whenPowered fun s => s.armArrival x ⟨0x22#8, tag, payload⟩

/-- RELEASE (R92, R93), kind 0x23. -/
def execRelease (x : Arm) (tag : Byte) (payload : List Byte) (s : State) : Host.Outcome State Fault Refusal :=
  s.whenPowered fun s => s.armArrival x ⟨0x23#8, tag, payload⟩

end Sys2Proof.Machine
end

