-- ==== Sys2Proof/Machine/Frames.lean ====
section
/-! DEFINITION. The meanings of the link commands: FRAME_BAD_CHECK, FRAME_ABANDONED, SUPERVISOR_REQUEST_ARRIVAL,
TRANSMIT_END, ARM_PORT_UNKNOWN_KIND (11_message_links). -/

namespace Sys2Proof.Machine

/-- FRAME_BAD_CHECK (R157): the characters of a frame whose check differs. -/
def execFrameBadCheck (port : Port) (chars : List Character) (s : State) : Host.Outcome State Fault Refusal :=
  s.whenPowered fun s => s.characters port chars

/-- FRAME_ABANDONED (R157): the characters of a frame that is abandoned. -/
def execFrameAbandoned (port : Port) (chars : List Character) (s : State) : Host.Outcome State Fault Refusal :=
  s.whenPowered fun s => s.characters port chars

/-- SUPERVISOR_REQUEST_ARRIVAL (R159). -/
def execSupervisorRequestArrival (kind tag : Byte) (payload : List Byte) (s : State) :
    Host.Outcome State Fault Refusal :=
  s.whenPowered fun s => s.supervisorArrival ⟨kind, tag, payload⟩

/-- TRANSMIT_END (R162). -/
def execTransmitEnd (port : Port) (s : State) : Host.Outcome State Fault Refusal :=
  s.whenPowered fun s =>
    match port with
    | .supervisor => s.endSupervisorFrame
    | .arm x => s.onArmLink x ArmLink.endFrame

/-- ARM_PORT_UNKNOWN_KIND (R158). -/
def execArmPortUnknownKind (x : Arm) (kind tag : Byte) (payload : List Byte) (s : State) :
    Host.Outcome State Fault Refusal :=
  s.whenPowered fun s => s.armArrival x ⟨kind, tag, payload⟩

end Sys2Proof.Machine
end

