-- ==== Sys2Proof/Machine/Requests.lean ====
section
/-! DEFINITION. The meanings of the supervisor's requests: each row is the arrival of a good frame of its kind at the
supervisor port, served at once when the port is idle, else queued or lost (R158, R159; log entry 4). The service of
each kind is in Machine/Serve.lean. -/

namespace Sys2Proof.Machine

/-- CONFIGURE (R149), kind 0x01. -/
def execConfigure (tag : Byte) (payload : List Byte) (s : State) : Host.Outcome State Fault Refusal :=
  s.whenPowered fun s => s.supervisorArrival ⟨0x01#8, tag, payload⟩

/-- START (R151), kind 0x02. -/
def execStart (tag : Byte) (payload : List Byte) (s : State) : Host.Outcome State Fault Refusal :=
  s.whenPowered fun s => s.supervisorArrival ⟨0x02#8, tag, payload⟩

/-- STOP (R152), kind 0x03. -/
def execStop (tag : Byte) (payload : List Byte) (s : State) : Host.Outcome State Fault Refusal :=
  s.whenPowered fun s => s.supervisorArrival ⟨0x03#8, tag, payload⟩

/-- RESTART (R154), kind 0x04. -/
def execRestart (tag : Byte) (payload : List Byte) (s : State) : Host.Outcome State Fault Refusal :=
  s.whenPowered fun s => s.supervisorArrival ⟨0x04#8, tag, payload⟩

/-- FENCE (R15), kind 0x05. -/
def execFence (tag : Byte) (payload : List Byte) (s : State) : Host.Outcome State Fault Refusal :=
  s.whenPowered fun s => s.supervisorArrival ⟨0x05#8, tag, payload⟩

/-- UNFENCE (R16), kind 0x06. -/
def execUnfence (tag : Byte) (payload : List Byte) (s : State) : Host.Outcome State Fault Refusal :=
  s.whenPowered fun s => s.supervisorArrival ⟨0x06#8, tag, payload⟩

/-- LOAD_PLAN (R106, R107), kind 0x07. -/
def execLoadPlan (tag : Byte) (payload : List Byte) (s : State) : Host.Outcome State Fault Refusal :=
  s.whenPowered fun s => s.supervisorArrival ⟨0x07#8, tag, payload⟩

/-- DROP_PLAN (R114), kind 0x08. -/
def execDropPlan (tag : Byte) (payload : List Byte) (s : State) : Host.Outcome State Fault Refusal :=
  s.whenPowered fun s => s.supervisorArrival ⟨0x08#8, tag, payload⟩

/-- DROP_PLAN naming LOADED (R115), kind 0x08 with the choice byte 1. -/
def execDropPlanLoaded (tag armByte : Byte) (s : State) : Host.Outcome State Fault Refusal :=
  s.whenPowered fun s => s.supervisorArrival ⟨0x08#8, tag, [armByte, 1#8]⟩

/-- CLAIM_FOR (R69), kind 0x09. -/
def execClaimFor (tag : Byte) (payload : List Byte) (s : State) : Host.Outcome State Fault Refusal :=
  s.whenPowered fun s => s.supervisorArrival ⟨0x09#8, tag, payload⟩

/-- REVOKE (R98, R99), kind 0x0A. -/
def execRevoke (tag : Byte) (payload : List Byte) (s : State) : Host.Outcome State Fault Refusal :=
  s.whenPowered fun s => s.supervisorArrival ⟨0x0A#8, tag, payload⟩

/-- CLEAR_FAULTS (R131), kind 0x0B. -/
def execClearFaults (tag : Byte) (payload : List Byte) (s : State) : Host.Outcome State Fault Refusal :=
  s.whenPowered fun s => s.supervisorArrival ⟨0x0B#8, tag, payload⟩

/-- GET_STATUS (R168), kind 0x0C. -/
def execGetStatus (tag : Byte) (payload : List Byte) (s : State) : Host.Outcome State Fault Refusal :=
  s.whenPowered fun s => s.supervisorArrival ⟨0x0C#8, tag, payload⟩

/-- GET_ROW (R169), kind 0x0D. -/
def execGetRow (tag : Byte) (payload : List Byte) (s : State) : Host.Outcome State Fault Refusal :=
  s.whenPowered fun s => s.supervisorArrival ⟨0x0D#8, tag, payload⟩

/-- SET_COUNTERS (R165), kind 0x0E. -/
def execSetCounters (tag : Byte) (payload : List Byte) (s : State) : Host.Outcome State Fault Refusal :=
  s.whenPowered fun s => s.supervisorArrival ⟨0x0E#8, tag, payload⟩

/-- GET_COUNTERS (R167), kind 0x0F. -/
def execGetCounters (tag : Byte) (payload : List Byte) (s : State) : Host.Outcome State Fault Refusal :=
  s.whenPowered fun s => s.supervisorArrival ⟨0x0F#8, tag, payload⟩

end Sys2Proof.Machine
end

