-- ==== Sys2Proof/Machine/Timers.lean ====
section
/-! DEFINITION. The meanings of the time-driven commands: the six timers' expiries, the scrub visit and the step of the
time base. An expiry or a visit that is not due does nothing (log entry 6). -/

namespace Sys2Proof.Machine

/-! ## The gap timer (R25) -/

/-- The gap timer expires: SAMPLE_GAP is latched, one GAPS event is counted, the gap state is LAPSED. -/
def Guard.gapExpiry (g : Guard) (x : Arm) : Event :=
  let ev := (g.quietEvent.raise x .sampleGap).signal x .gaps 1
  (ev.onGuard fun g => g.onArm x fun a => { a with intake := { a.intake with gap := .lapsed, gapTimer := none } }).settleLevel x

/-- GAP_TIMER_EXPIRY (R25). -/
def execGapTimerExpiry (x : Arm) (s : State) : Host.Outcome State Fault Refusal :=
  s.whenPowered fun s =>
    if s.guard.due (s.guard.arm x).intake.gapTimer then s.conclude (s.guard.gapExpiry x) else s

/-! ## The timers of a waiting claim (R78, R79) -/

/-- A claim one priority older; its aging timer starts again below 7. -/
def Claim.aged (c : Claim) (g : Guard) : Claim :=
  { c with
    priority := min 7 (c.priority + 1)
    aging := if c.priority + 1 < 7 then g.timerFor g.cfg.tAge else none }

/-- The aging timer expires: the priority rises by one, which calls for an evaluation. -/
def Guard.agingExpiry (g : Guard) (k : ClaimKey) : Event :=
  (g.quietEvent.onGuard fun g => g.onClaim k fun c => c.aged g).callEvaluation true

/-- AGING_TIMER_EXPIRY (R78). -/
def execAgingTimerExpiry (x : Arm) (number : Byte) (s : State) : Host.Outcome State Fault Refusal :=
  s.whenPowered fun s =>
    match s.guard.claim? ⟨x, number⟩ with
    | none => s
    | some c => if c.isWaiting && s.guard.due c.aging then s.conclude (s.guard.agingExpiry c.key) else s

/-- TIMEOUT_TIMER_EXPIRY (R79): the claim is bounced. -/
def execTimeoutTimerExpiry (x : Arm) (number : Byte) (s : State) : Host.Outcome State Fault Refusal :=
  s.whenPowered fun s =>
    match s.guard.claim? ⟨x, number⟩ with
    | none => s
    | some c =>
      if c.isWaiting && s.guard.due c.timeout then s.conclude (s.guard.quietEvent.bounce c .timeout) else s

/-! ## The escalation timers (R128, R129) -/

/-- The slow timer expires: above v_slow, ESCALATED is latched at HOLD. It is not latched before, since the level is
SLOW. -/
def Guard.slowExpiry (g : Guard) (x : Arm) : Event :=
  let ev := g.quietEvent.onGuard fun g => g.onUnit x fun u => { u with slowTimer := none }
  if (g.cfg.arm x).vSlow < (g.arm x).calculator.lastSpeed ∧ (g.arm x).unit.sources.escalated = none then
    (ev.escalate x .hold).settleLevel x
  else ev

/-- SLOW_TIMER_EXPIRY (R128). -/
def execSlowTimerExpiry (x : Arm) (s : State) : Host.Outcome State Fault Refusal :=
  s.whenPowered fun s => if s.guard.due (s.guard.arm x).unit.slowTimer then s.conclude (s.guard.slowExpiry x) else s

/-- The hold timer expires: above v_still, ESCALATED is made latched at HALT. -/
def Guard.holdExpiry (g : Guard) (x : Arm) : Event :=
  let ev := g.quietEvent.onGuard fun g => g.onUnit x fun u => { u with holdTimer := none }
  if (g.cfg.arm x).vStill < (g.arm x).calculator.lastSpeed ∧ (g.arm x).unit.sources.escalated ≠ some .halt then
    (ev.escalate x .halt).settleLevel x
  else ev

/-- HOLD_TIMER_EXPIRY (R129). -/
def execHoldTimerExpiry (x : Arm) (s : State) : Host.Outcome State Fault Refusal :=
  s.whenPowered fun s => if s.guard.due (s.guard.arm x).unit.holdTimer then s.conclude (s.guard.holdExpiry x) else s

/-! ## The leak timer (R142) -/

/-- Each section error counter above 0 falls by 1, and the timer starts again with the t_leak in force. -/
def Guard.leak (g : Guard) : Guard :=
  { g with
    sections := g.sections.map fun t => { t with errors := t.errors - 1 }
    leakTimer := g.timerFor (msSteps g.cfg.tLeak) }

/-- LEAK_TIMER_EXPIRY (R142). -/
def execLeakTimerExpiry (s : State) : Host.Outcome State Fault Refusal :=
  s.whenPowered fun s => if s.guard.due s.guard.leakTimer then { s with guard := s.guard.leak } else s

/-! ## The scrub (R140) -/

/-- Whether the cursor's visit is due: outside INIT, at a list that is not empty. -/
def Guard.visitDue (g : Guard) : Bool := g.mode ≠ .init && 0 < g.scrubLength && g.scrubTime ≤ g.now

/-- The visit: one read, then the cursor moves on. -/
def Guard.visit (g : Guard) : Event := ((g.quietEvent.readCell .scrub (g.scrubCell g.scrub.pos)).1).onGuard Guard.advanceScrub

/-- SCRUB_VISIT (R140). -/
def execScrubVisit (s : State) : Host.Outcome State Fault Refusal :=
  s.whenPowered fun s => if s.guard.visitDue then s.conclude s.guard.visit else s

/-! ## The time base (R84, R85, R124, R166) -/

/-- One step added to the accumulator of its cause. -/
def ArmCounters.wait (c : ArmCounters) (e : CountEvent) : ArmCounters :=
  match e with
  | .waitOther => { c with waitOther := sat32 (c.waitOther + 1) }
  | .waitVacating => { c with waitVacating := sat32 (c.waitVacating + 1) }
  | .waitReserved => { c with waitReserved := sat32 (c.waitReserved + 1) }
  | _ => c

/-- A step attributed to its cause: WAIT_TOTAL, the cause's event, and the accumulator (R84, R85). -/
def Guard.waitStep (g : Guard) (x : Arm) : Guard :=
  match g.waitCause x with
  | none => g
  | some e => ((g.signal x .waitTotal 1).signal x e 1).onArm x fun a => { a with counters := a.counters.wait e }

/-- A step during which the level is SLOW or above (R124). -/
def Guard.restraintStep (g : Guard) (x : Arm) : Guard :=
  if (g.arm x).unit.level = .none then g else g.signal x .timeSlowOrAbove 1

/-- One step of the time base; in INIT nothing is counted. -/
def Guard.tick (g : Guard) : Guard :=
  let g' := if g.mode = .init then g else (((g.restraintStep .A).waitStep .A).restraintStep .B).waitStep .B
  { g' with now := g.now + 1 }

/-- TIME_BASE_STEP (R84). -/
def execTimeBaseStep (s : State) : Host.Outcome State Fault Refusal :=
  s.whenPowered fun s => { s with guard := s.guard.tick }

end Sys2Proof.Machine
end

