-- ==== Sys2Proof/Machine/Dispatch.lean ====
section
/-! DEFINITION. One arm per command: its meaning. -/

namespace Sys2Proof.Machine

def exec (i : Instr) (s : State) : Host.Outcome State Fault Refusal :=
  match i with
  | .powerOn => Sys2Proof.Machine.execPowerOn s
  | .initEnd => Sys2Proof.Machine.execInitEnd s
  | .powerLoss supply => Sys2Proof.Machine.execPowerLoss supply s
  | .frameBadCheck port chars => Sys2Proof.Machine.execFrameBadCheck port chars s
  | .frameAbandoned port chars => Sys2Proof.Machine.execFrameAbandoned port chars s
  | .supervisorRequestArrival kind tag payload => Sys2Proof.Machine.execSupervisorRequestArrival kind tag payload s
  | .transmitEnd port => Sys2Proof.Machine.execTransmitEnd port s
  | .configure tag payload => Sys2Proof.Machine.execConfigure tag payload s
  | .start tag payload => Sys2Proof.Machine.execStart tag payload s
  | .stop tag payload => Sys2Proof.Machine.execStop tag payload s
  | .restart tag payload => Sys2Proof.Machine.execRestart tag payload s
  | .fence tag payload => Sys2Proof.Machine.execFence tag payload s
  | .unfence tag payload => Sys2Proof.Machine.execUnfence tag payload s
  | .loadPlan tag payload => Sys2Proof.Machine.execLoadPlan tag payload s
  | .dropPlan tag payload => Sys2Proof.Machine.execDropPlan tag payload s
  | .dropPlanLoaded tag armByte => Sys2Proof.Machine.execDropPlanLoaded tag armByte s
  | .claimFor tag payload => Sys2Proof.Machine.execClaimFor tag payload s
  | .revoke tag payload => Sys2Proof.Machine.execRevoke tag payload s
  | .clearFaults tag payload => Sys2Proof.Machine.execClearFaults tag payload s
  | .getStatus tag payload => Sys2Proof.Machine.execGetStatus tag payload s
  | .getRow tag payload => Sys2Proof.Machine.execGetRow tag payload s
  | .setCounters tag payload => Sys2Proof.Machine.execSetCounters tag payload s
  | .getCounters tag payload => Sys2Proof.Machine.execGetCounters tag payload s
  | .sample x tag payload => Sys2Proof.Machine.execSample x tag payload s
  | .request x tag payload => Sys2Proof.Machine.execRequest x tag payload s
  | .skip x tag payload => Sys2Proof.Machine.execSkip x tag payload s
  | .release x tag payload => Sys2Proof.Machine.execRelease x tag payload s
  | .gapTimerExpiry x => Sys2Proof.Machine.execGapTimerExpiry x s
  | .agingTimerExpiry x number => Sys2Proof.Machine.execAgingTimerExpiry x number s
  | .timeoutTimerExpiry x number => Sys2Proof.Machine.execTimeoutTimerExpiry x number s
  | .slowTimerExpiry x => Sys2Proof.Machine.execSlowTimerExpiry x s
  | .holdTimerExpiry x => Sys2Proof.Machine.execHoldTimerExpiry x s
  | .leakTimerExpiry => Sys2Proof.Machine.execLeakTimerExpiry s
  | .scrubVisit => Sys2Proof.Machine.execScrubVisit s
  | .timeBaseStep => Sys2Proof.Machine.execTimeBaseStep s
  | .armPortUnknownKind x kind tag payload => Sys2Proof.Machine.execArmPortUnknownKind x kind tag payload s
  | .permitLineShorted x line overheats => Sys2Proof.Machine.execPermitLineShorted x line overheats s

end Sys2Proof.Machine
end

