-- ==== Sys2Proof/Safety.lean ====
section
/-! DEFINITION. What it means for a state of the guard to be in order: the two arms kept apart, the cell map in
agreement with the records, the permit lines behind the levels, the tables and queues within their sizes. -/

namespace Sys2Proof.Machine

/-! ## The two arms kept apart (R74) -/

/-- No cell is owned, held or vacating, by both arms. -/
def Guard.apart (g : Guard) : Prop := ∀ c, ¬(g.ownedBy .A c = true ∧ g.ownedBy .B c = true)

/-! ## The cell map (R2, R5, R6) -/

/-- A cell of the store. -/
def Cell.inStore (c : Cell) : Prop := c.col < 32 ∧ c.row < 24

/-- Every cell of a list is a cell of the store. -/
def allInStore (cells : CellSet) : Prop := ∀ c ∈ cells, c.inStore

/-- Every cell of a list is a cell of the grid. -/
def Guard.allInGrid (g : Guard) (cells : CellSet) : Prop := ∀ c ∈ cells, g.cfg.inGrid c = true

/-- Every entry of the store holds the value derived from the records. -/
def Guard.mapAgrees (g : Guard) : Prop := ∀ c, c.inStore → g.entryOf c = g.derive c

/-- The grid fits into the store (10.6), poisoned cells are cells of the store, and every other record names cells of the
grid alone (R2). -/
def Guard.cellsInGrid (g : Guard) : Prop :=
  g.cfg.nc ≤ 32 ∧ g.cfg.nr ≤ 24 ∧ allInStore g.poisoned ∧ g.allInGrid g.fences ∧ g.allInGrid g.a.vacate ∧
    g.allInGrid g.b.vacate ∧ ∀ c ∈ g.claims, g.allInGrid c.effective ∧ g.allInGrid c.reserved

/-- The scrub cursor stands in its visit list (R140, R141). -/
def Guard.cursorInList (g : Guard) : Prop := g.scrub.pos < g.scrubLength

/-- Only a waiting claim has reservations (R74). -/
def Guard.heldReserveNothing (g : Guard) : Prop := ∀ c ∈ g.claims, c.phase = .held → c.reserved = []

/-- The claims of the table, by name. -/
def Guard.keys (g : Guard) : List ClaimKey := g.claims.map Claim.key

/-- An arm's claims in the table have different numbers (R65). -/
def Guard.keysDiffer (g : Guard) : Prop := g.keys.Nodup

/-- At most two claims belong to any one arm (R63). -/
def Guard.claimsFit (g : Guard) : Prop := ∀ x, g.claimCount x ≤ 2

/-- The state of the tray is in order. -/
def Guard.trayInOrder (g : Guard) : Prop :=
  g.mapAgrees ∧ g.apart ∧ g.cellsInGrid ∧ g.heldReserveNothing ∧ g.keysDiffer

/-! ## Levels and lines (R122, R125, R135) -/

/-- An arm's level is the level of its sources, HALT in INIT. -/
def Guard.levelAgrees (g : Guard) (x : Arm) : Prop := (g.arm x).unit.level = g.levelFor x

/-- An arm's lines are given exactly as its level gives them, and dropped while a supply loss holds them. -/
def Guard.linesFollow (g : Guard) (x : Arm) : Prop :=
  (g.arm x).unit.lines.speedOk.given = ((g.arm x).unit.level.givesSpeed && !g.linesCut) ∧
  (g.arm x).unit.lines.moveOk.given = ((g.arm x).unit.level.givesMove && !g.linesCut) ∧
  (g.arm x).unit.lines.powerOk.given = ((g.arm x).unit.level.givesPower && !g.linesCut)

/-- While VPERM is absent the lines are held dropped (R135). -/
def Guard.absentCuts (g : Guard) : Prop := g.permitSupply = false → g.linesCut = true

/-- Every permit of both arms is dropped. -/
def Guard.allDropped (g : Guard) : Prop :=
  ∀ x, (g.arm x).unit.lines.speedOk.given = false ∧ (g.arm x).unit.lines.moveOk.given = false ∧
    (g.arm x).unit.lines.powerOk.given = false

/-- A running escalation timer belongs to the level the arm is at (R127). -/
def ActionUnit.timersFit (u : ActionUnit) : Prop :=
  (u.slowTimer ≠ none → u.level = .slow) ∧ (u.holdTimer ≠ none → u.level = .hold)

/-- What a computation of the level does to the two escalation timers (R126, R127): none where the level stays; a change
stops both, but for the slow timer, which a rise to SLOW starts, and the hold timer, which a rise to HOLD starts. -/
def Guard.timersFollow (g : Guard) (x : Arm) (was is : ActionUnit) : Prop :=
  (is.level = was.level → is.slowTimer = was.slowTimer ∧ is.holdTimer = was.holdTimer) ∧
  (is.level ≠ was.level →
    is.slowTimer = (if was.level = .none ∧ is.level = .slow then some (g.now + (g.cfg.arm x).tSlow) else none) ∧
    is.holdTimer = (if was.level.code < 2 ∧ is.level = .hold then some (g.now + (g.cfg.arm x).tHold) else none))

/-! ## One arm's zone (R26, R27, R34, R94) -/

/-- NO_POSITION is asserted exactly while the zone state is UNKNOWN; the footprint is empty unless it is INSIDE; a CLEAR
arm has no vacating cells; SAMPLE_GAP is not latched while the gap state is DISARMED. -/
def ArmState.zoneInOrder (a : ArmState) : Prop :=
  (a.unit.sources.noPosition = true ↔ a.calculator.zone = .unknown) ∧
  (a.calculator.zone ≠ .inside → a.calculator.footprint = none) ∧
  (a.calculator.zone = .clear → a.vacate = []) ∧
  (a.unit.sources.sampleGap = true → a.intake.gap ≠ .disarmed)

/-! ## Priorities (R64, R78, R106) -/

/-- Every claim's effective priority lies between its base priority and 7, and no stored plan entry's priority is above
7. -/
def Guard.prioritiesFit (g : Guard) : Prop :=
  (∀ c ∈ g.claims, c.base ≤ c.priority ∧ c.priority ≤ 7) ∧
  ∀ x i p, ((g.arm x).slot i).plan? = some p → ∀ e ∈ p.entries, e.priority ≤ 7

/-! ## Modes and sections (R4, R63, R153) -/

/-- INIT has an empty claim table, SETUP no PLAN claim. -/
def Guard.claimsFitMode (g : Guard) : Prop :=
  (g.mode = .init → g.claims = []) ∧ (g.mode = .setup → ∀ c ∈ g.claims, c.isPlan = false)

/-- At least one section is active. -/
def Guard.someActive (g : Guard) : Prop := ∃ s ∈ sectionNumbers, g.isActive s = true

/-! ## Plans (R104, R105, R116) -/

/-- How many of an arm's claims come from a plan slot. -/
def Guard.slotClaims (g : Guard) (x : Arm) (i : SlotIx) : Nat := (g.claims.filter fun c => c.fromSlot x i).length

/-- The tallies of a plan, and its claims still in the table, add up to what it has issued. -/
def Plan.balances (p : Plan) (inTable : Nat) : Prop := p.issued = p.picked + p.skipped + p.missed + inTable

/-- One slot's account: an EMPTY or LOADED slot has no claim, a LOADED plan has issued nothing, an ACTIVE one less than
65535 entries. -/
def Guard.slotAccounts (g : Guard) (x : Arm) (i : SlotIx) : Prop :=
  match (g.arm x).slot i with
  | .empty => g.slotClaims x i = 0
  | .loaded p => g.slotClaims x i = 0 ∧ p.issued = 0 ∧ p.balances 0
  | .active p => p.issued < 65535 ∧ p.balances (g.slotClaims x i)
  | .finishing p => p.issued ≤ 65535 ∧ p.balances (g.slotClaims x i)

/-- An arm's two slots are never both ACTIVE, and one is LOADED only while the other is ACTIVE (R105). -/
def ArmState.slotsPair (a : ArmState) : Prop :=
  ¬(a.slot0.isActive = true ∧ a.slot1.isActive = true) ∧
  (a.slot0.isLoaded = true → a.slot1.isActive = true) ∧ (a.slot1.isLoaded = true → a.slot0.isActive = true)

/-- Every slot's account is in order, each arm's slots are in one of their combinations, and claims are told apart by their
names. -/
def Guard.plansInOrder (g : Guard) : Prop :=
  g.keysDiffer ∧ (∀ x i, g.slotAccounts x i) ∧ ∀ x, (g.arm x).slotsPair

/-! ## Queues (R159, R160, R163) -/

/-- The supervisor port's queues are within their sizes. -/
def SupervisorLink.fits (k : SupervisorLink) : Prop :=
  k.queue.length ≤ requestCapacity ∧ k.refusals.length ≤ refusalCapacity ∧ k.notices.length ≤ hostNoticeCapacity ∧
    k.lost ≤ 65535

/-- An arm port's queues are within their sizes. -/
def ArmLink.fits (k : ArmLink) : Prop :=
  k.replies.length ≤ replyCapacity ∧ k.notices.length ≤ armNoticeCapacity ∧ k.lost ≤ 65535

/-- Every queue of the links is within its size. -/
def Link.fits (l : Link) : Prop := l.sup.fits ∧ l.a.fits ∧ l.b.fits

/-! ## When a request is served at once -/

/-- The guard has power and is past INIT: requests are considered. -/
def State.considers (s : State) : Prop := s.guard.powered = true ∧ s.guard.mode ≠ .init

/-- A supervisor request that arrives now is served at once (R159). -/
def State.servesHost (s : State) : Prop := s.considers ∧ s.link.sup.isIdle = true

/-- An arm request that arrives now is served (R160). -/
def State.servesArm (s : State) (x : Arm) : Prop := s.considers ∧ (s.link.arm x).replies.length < replyCapacity

/-- The supervisor port with a reply to this request placed in its idle slot, its receiver back in HUNT. -/
def State.replied (s : State) (kind tag : Byte) (r : Reply) : State :=
  s.onSup fun k => { k with port := { k.port with rx := .hunt } }.place (replyFrame kind tag r)

/-- An arm port with a reply to this request in its reply queue, its receiver back in HUNT. -/
def State.armReplied (s : State) (x : Arm) (kind tag : Byte) (r : Reply) : State :=
  s.onArmLink x fun k => { k with port := { k.port with rx := .hunt } }.reply (replyFrame kind tag r)

/-! ## What an event's shared operations leave alone -/

/-- One plan the same as another but for its tallies. -/
def Plan.sameCourse (p q : Plan) : Prop :=
  q.planId = p.planId ∧ q.passes = p.passes ∧ q.entries = p.entries ∧ q.cursor = p.cursor ∧
    q.passesCompleted = p.passesCompleted ∧ q.issued = p.issued ∧ q.endReason = p.endReason

/-- What can become of a slot by the way: its tallies move, and a FINISHING one can become EMPTY (R111, R112). -/
def Slot.follows : Slot → Slot → Prop
  | .empty, .empty => True
  | .loaded p, .loaded q => p.sameCourse q
  | .active p, .active q => p.sameCourse q
  | .finishing p, .finishing q => p.sameCourse q
  | .finishing _, .empty => True
  | _, _ => False

/-- What reads, evaluations, endings of claims and retirements leave alone of an arm: the intake, the calculator, the
verdict, the next claim number, every source but REVOKED, which stays latched, and the slots but for `Slot.follows`. -/
def ArmState.keeps (a b : ArmState) : Prop :=
  b.intake = a.intake ∧ b.calculator = a.calculator ∧ b.verdict = a.verdict ∧ b.nextNumber = a.nextNumber ∧
    b.unit.sources = { a.unit.sources with revoked := b.unit.sources.revoked } ∧
    (a.unit.sources.revoked = true → b.unit.sources.revoked = true) ∧ a.slot0.follows b.slot0 ∧ a.slot1.follows b.slot1

/-- What they leave alone of a claim that stays: its name, origin, shape and priorities, and that it is held. -/
def Claim.keeps (c d : Claim) : Prop :=
  d.key = c.key ∧ d.origin = c.origin ∧ d.shape = c.shape ∧ d.priority = c.priority ∧ d.base = c.base ∧
    d.waitStart = c.waitStart ∧ (c.phase = .held → d.phase = .held)

/-- The second guard follows from the first by such operations alone: the configuration set, the time base, the supplies, the
fence layer, the leak timer and the pass count stay, no claim is made, no retirement undone, and the mode changes at most by
the end of DRAINING. What can change: who holds which cell, levels and lines, the store, and what counts reads, grants and
outcomes. -/
def Guard.followedBy (g h : Guard) : Prop :=
  h.cfg = g.cfg ∧ h.now = g.now ∧ h.powered = g.powered ∧ h.permitSupply = g.permitSupply ∧ h.linesCut = g.linesCut ∧
    h.fences = g.fences ∧ h.leakTimer = g.leakTimer ∧ h.scrubPasses = g.scrubPasses ∧
    (h.mode = g.mode ∨ (g.mode = .draining ∧ h.mode = .setup)) ∧
    (∀ x, (g.arm x).keeps (h.arm x)) ∧ (∀ d ∈ h.claims, ∃ e ∈ g.claims, e.keeps d) ∧
    (∀ n, g.isRetired n = true → h.isRetired n = true)

/-! ## What a command does to the links -/

/-- The links after an event that formed no reply: its notices were posted, and nothing else came to them. -/
def State.noticed (s t : State) : Prop := ∃ out, t.link = s.link.deliver out

/-- The supervisor port after a request served at once: its receiver in HUNT, its reply placed, then notices posted. -/
def State.answered (s t : State) (kind tag : Byte) (r : Reply) : Prop := ∃ out, t.link = (s.replied kind tag r).link.deliver out

/-- The same of an arm port. -/
def State.armAnswered (s t : State) (x : Arm) (kind tag : Byte) (r : Reply) : Prop :=
  ∃ out, t.link = (s.armReplied x kind tag r).link.deliver out

/-- WITHDRAWN of some waiting claims, in the order given (R82). -/
def withdrawals (cs : List Claim) : List Posted := cs.map fun c => .toArm c.arm (.withdrawn c.number c.origin)

/-- What a source raised or asserted at an arm places in the queues, the level then being `new`: a rise to HOLD or HALT
withdraws the arm's waiting PLAN claims (R81), older first by the model's choice (log entry 39), and then comes FAULT, for a
change and with the notify flag on (R120). -/
def Guard.sourceNotices (g : Guard) (x : Arm) (src : Source) (changed : Bool) (action new : Level) : List Posted :=
  (if (g.arm x).unit.level.code < 2 ∧ 2 ≤ new.code then
    withdrawals (g.claims.filter fun c => c.isWaiting && c.arm = x && c.isPlan) else []) ++
  (if changed && (g.cfg.arm x).notify.of src then [.toHost (.fault x src .raised action new)] else [])

/-- A counter at a grant: GRANTS adds one, CELLS_EXCLUDED the claim's excluded count, every other stays (R85, R164). -/
def Counter.atGrant (k : Counter) (excluded : Nat) : Counter :=
  match k.selection with
  | .grants => { k with value := sat32 (k.value + 1) }
  | .cellsExcluded => { k with value := sat32 (k.value + excluded) }
  | _ => k

/-- PLAN_END on its two queues (R112). -/
def planEnds (e : PlanEnd) : List Posted := [.toHost (.planEnd e), .toArm e.arm (.planEnd e)]

/-- No plan is left to end by the way: no slot is FINISHING, and the mode is not DRAINING. -/
def Guard.nothingEnds (g : Guard) : Prop := g.mode ≠ .draining ∧ ∀ x i p, (g.arm x).slot i ≠ .finishing p

/-! ## The configuration set by parameter (10.6) -/

/-- The value of a common parameter. -/
def ConfigSet.commonValue (c : ConfigSet) : CommonParam → Int
  | .nc => c.nc
  | .nr => c.nr
  | .pitch => c.pitch
  | .x0 => c.x0
  | .y0 => c.y0
  | .zEnter => c.zEnter
  | .zHyst => c.zHyst
  | .tAge => c.tAge
  | .tWaitMax => c.tWaitMax
  | .scrubPeriod => c.scrubPeriod
  | .tLeak => c.tLeak
  | .retireThreshold => c.retireThreshold

/-- The value of a per-arm parameter: an action by its code, a flag as 0 or 1; the three sources without a configured
action have none. -/
def ArmConfig.value (c : ArmConfig) : ArmParam → Int
  | .radius => c.radius
  | .tReact => c.tReact
  | .decel => c.decel
  | .tMin => c.tMin
  | .tGap => c.tGap
  | .dTol => c.dTol
  | .dualRequired => if c.dualRequired then 1 else 0
  | .vSlow => c.vSlow
  | .vStill => c.vStill
  | .tSlow => c.tSlow
  | .tHold => c.tHold
  | .action .reach => c.actions.reach.code
  | .action .intrusion => c.actions.intrusion.code
  | .action .fenceEntry => c.actions.fenceEntry.code
  | .action .sampleGap => c.actions.sampleGap.code
  | .action .sampleEarly => c.actions.sampleEarly.code
  | .action .disagree => c.actions.disagree.code
  | .action _ => 0
  | .notify src => if c.notify.of src then 1 else 0

/-- The value of what an item names; nothing else has one. -/
def ConfigSet.valueOf (c : ConfigSet) : Param × Option Arm → Int
  | (.common p, none) => c.commonValue p
  | (.perArm p, some x) => (c.arm x).value p
  | _ => 0

/-! ## Good reads -/

/-- Every read and verify on the way from one state to the next found its entry good: all that is foretold is good, and
nothing was drawn beyond it. -/
def State.goodReads (s t : State) : Prop := (∀ f ∈ s.guard.findings, f = .good) ∧ t.guard.reads = s.guard.reads

/-- The commands that can bring about a RESTART or a power cycle: their own rows, and what can serve a request of any kind
on the supervisor port. -/
def mayRestart : Instr → Bool
  | .powerOn | .restart _ _ => true
  | .supervisorRequestArrival kind _ _ => kind = 0x04#8
  | .frameBadCheck port _ | .frameAbandoned port _ | .transmitEnd port => port = .supervisor
  | _ => false

/-- The next `n` findings of the store are good. -/
def Guard.goodFor (g : Guard) (n : Nat) : Prop := ∃ rest, g.findings = List.replicate n .good ++ rest

/-- The guard after some findings were drawn. -/
def Guard.drawn (g : Guard) (n : Nat) : Guard := { g with findings := g.findings.drop n }

/-- How many findings a list of reads draws: none for a poisoned cell (R136). -/
def Guard.draws (g : Guard) (cells : CellSet) : Nat := (cells.filter fun c => c ∉ g.poisoned).length

end Sys2Proof.Machine
end

