-- ==== Sys2Proof/WellFormed.lean ====
section
/-! DEFINITION. Which commands an environment can send: a good frame's payload has at most 248 bytes (R156, R157);
the characters of FRAME_BAD_CHECK and FRAME_ABANDONED do what their row says; the row of a kind is used for its kind.
The meanings are defined for every command, well formed or not. -/

namespace Sys2Proof

open Sys2Proof.Machine

/-- A payload a good frame can carry (R157: a length of 249..255 abandons the frame). -/
def payloadFits (payload : List Byte) : Bool := payload.length ≤ maxPayload

/-- The check on a command. -/
def Instr.wellFormed : Instr → Bool
  | .powerOn | .initEnd | .powerLoss _ => true
  | .frameBadCheck _ chars => (Receiver.hunt.run chars).2 = [.badCheck]
  | .frameAbandoned _ chars => (Receiver.hunt.run chars).2 = [.abandoned]
  | .supervisorRequestArrival _ _ p => payloadFits p
  | .transmitEnd _ => true
  | .configure _ p | .start _ p | .stop _ p | .restart _ p | .fence _ p | .unfence _ p => payloadFits p
  | .loadPlan _ p => payloadFits p
  | .dropPlan _ p => payloadFits p && !(p.length == 2 && p.getLast? == some 1#8)
  | .dropPlanLoaded _ _ => true
  | .claimFor _ p | .revoke _ p | .clearFaults _ p | .getStatus _ p | .getRow _ p => payloadFits p
  | .setCounters _ p | .getCounters _ p => payloadFits p
  | .sample _ _ p | .request _ _ p | .skip _ _ p | .release _ _ p => payloadFits p
  | .gapTimerExpiry _ | .agingTimerExpiry _ _ | .timeoutTimerExpiry _ _ => true
  | .slowTimerExpiry _ | .holdTimerExpiry _ | .leakTimerExpiry | .scrubVisit | .timeBaseStep => true
  | .armPortUnknownKind _ kind _ p => payloadFits p && !isArmKind kind
  | .permitLineShorted _ _ _ => true

end Sys2Proof
end

