-- ==== Sys2Proof/Certificates/Slice0/Obligations.lean ====
section
/-! DEFINITION. The statements about the guard. Where a statement says what a command comes to, it says so for every state
that meets its hypotheses; the findings of the store are free unless a hypothesis says that the next ones are good. -/

open Sys2Proof Sys2Proof.Machine

/-! ## Steps -/

/-- A step runs the command at the front of the queue on the rest; an empty queue leaves the guard idle. The queue is the
model's (log entry 5). -/
def Obligations.StepRunsFrontCommand : Prop :=
  ∀ (c : Instr) (s : State),
    step (s.withCommand c) = exec c s ∧
    (∀ cs, step { s with pending := c :: cs } = exec c { s with pending := cs }) ∧
    step { s with pending := [] } = .next { s with pending := [] }

/-- No command stops the guard, none touches the queue behind it, and without power only POWER_ON and POWER_LOSS do
anything (log entry 8). -/
def Obligations.EveryCommandCompletes : Prop :=
  ∀ (c : Instr) (s : State),
    (∃ t, exec c s = .next t ∧ t.pending = s.pending) ∧
    (s.guard.powered = false → c ≠ .powerOn → (∀ u, c ≠ .powerLoss u) → exec c s = .next s)

/-! ## Power and lines -/

/-- POWER_ON leaves what reset leaves, but for the store's findings to come and the queue, which the model keeps (log entry
8); and reset leaves the power-on values of every chapter. That VPERM's presence is a bit of the model's is log entry 9, that
the transmitters are idle is log entry 29. -/
def Obligations.PowerOnValues : Prop :=
  (∀ s, exec .powerOn s = .next { State.reset with
      guard := { State.reset.guard with findings := s.guard.findings, reads := s.guard.reads }
      pending := s.pending }) ∧
  State.reset.guard.mode = .init ∧ State.reset.guard.cfg = ConfigSet.default ∧ State.reset.guard.claims = [] ∧
  State.reset.guard.lastGranted = .B ∧ State.reset.guard.fences = [] ∧ State.reset.guard.poisoned = [] ∧
  (∀ n, State.reset.guard.sections.get n = ⟨false, 0, 0, 0, 0⟩) ∧ (∀ c, State.reset.guard.entryOf c = Entry.free) ∧
  (∀ x,
    (State.reset.guard.arm x).intake = ⟨none, none, none, .disarmed, none⟩ ∧
    (State.reset.guard.arm x).calculator = ⟨.unknown, none, none, 0⟩ ∧
    (State.reset.guard.arm x).verdict = ⟨false, false, false⟩ ∧
    (∀ src, (State.reset.guard.arm x).unit.sources.has src = true ↔ src = .noPosition) ∧
    (State.reset.guard.arm x).unit.level = .halt ∧
    (State.reset.guard.arm x).unit.slowTimer = none ∧ (State.reset.guard.arm x).unit.holdTimer = none ∧
    (State.reset.guard.arm x).vacate = [] ∧
    (∀ i, (State.reset.guard.arm x).slot i = .empty) ∧
    (State.reset.guard.arm x).nextNumber = 0#8 ∧
    (∀ i, (State.reset.guard.arm x).counters.selectable.get i = ⟨.off, 0⟩) ∧
    (State.reset.guard.arm x).counters.waitOther = 0 ∧ (State.reset.guard.arm x).counters.waitVacating = 0 ∧
    (State.reset.guard.arm x).counters.waitReserved = 0 ∧ (State.reset.guard.arm x).counters.discarded = 0 ∧
    (State.reset.link.arm x).replies = [] ∧ (State.reset.link.arm x).notices = [] ∧ (State.reset.link.arm x).lost = 0) ∧
  State.reset.guard.allDropped ∧ State.reset.guard.powered = true ∧ State.reset.guard.permitSupply = true ∧
  State.reset.guard.scrubPasses = 0 ∧ State.reset.guard.leakTimer = none ∧
  (∀ p, (State.reset.link.port p).rx = .hunt ∧ (State.reset.link.port p).tx = none ∧
    (State.reset.link.port p).badCheck = 0 ∧ (State.reset.link.port p).abandoned = 0 ∧ (State.reset.link.port p).overrun = 0) ∧
  State.reset.link.sup.queue = [] ∧ State.reset.link.sup.slot = none ∧ State.reset.link.sup.refusals = [] ∧
  State.reset.link.sup.notices = [] ∧ State.reset.link.sup.lost = 0

/-- INIT_END: INIT becomes SETUP, whatever the verifies of the store find; POISONED for each cell whose verify failed and
then MODE(SETUP, POWER_ON) are posted, all at this moment by the model's choice (log entry 43); the lines follow the levels,
all dropped while VPERM is absent (log entry 9); outside INIT it changes nothing (log entry 6). -/
def Obligations.InitEndEntersSetup : Prop :=
  ∀ s : State, s.guard.powered = true →
    (s.guard.mode = .init → s.guard.claims = [] → (∀ x, (s.guard.arm x).unit.level = .halt) →
      ∃ t, exec .initEnd s = .next t ∧
        (∃ found, t.link = s.link.deliver (found ++ [.toHost (.mode .setup .powerOn)]) ∧ (s.goodReads t → found = []) ∧
          (s.guard.poisoned = [] → (∀ x, (s.guard.arm x).vacate = []) →
            found = t.guard.poisoned.map fun c => .toHost (.poisoned c none .init))) ∧
        t.guard.mode = .setup ∧ t.guard.linesCut = !s.guard.permitSupply ∧ t.guard.claims = [] ∧ t.guard.cfg = s.guard.cfg ∧
        t.guard.now = s.guard.now ∧ t.guard.fences = s.guard.fences ∧
        t.guard.leakTimer = some (s.guard.now + 10 * s.guard.cfg.tLeak) ∧
        t.guard.scrub = ⟨0, s.guard.now, 10 * s.guard.cfg.scrubPeriod, true⟩ ∧
        (∀ n, (t.guard.sections.get n).errors = (s.guard.sections.get n).errors) ∧
        ∀ x, (s.guard.arm x).keeps (t.guard.arm x) ∧
          (t.guard.arm x).unit.sources = (s.guard.arm x).unit.sources ∧
          (t.guard.arm x).unit.level = levelOf (s.guard.cfg.arm x) (s.guard.arm x).unit.sources ∧
          (t.guard.arm x).unit.slowTimer = none ∧ (t.guard.arm x).unit.holdTimer = none ∧ t.guard.linesFollow x) ∧
    (s.guard.mode ≠ .init → exec .initEnd s = .next s)

/-- POWER_LOSS of either supply drops all six permits at once and changes nothing else but which supply stands; the logic
supply takes the guard with it, VPERM stays absent until POWER_ON (log entries 8 and 9). PERMIT_LINE_SHORTED: the guard's
level does not know of it; the permit of a given line that is shorted does not arrive at the arm, whether the line is limited
or off, and a line keeps being given or dropped as it was. What ends a short, and that a dropped line shows nothing, are the
model's (log entry 10). -/
def Obligations.PermitLinesDropAndShort : Prop :=
  (∀ (supply : Supply) (s : State), ∃ t, exec (.powerLoss supply) s = .next t ∧
    t.guard.allDropped ∧ t.guard.linesCut = true ∧
    t.guard.powered = (match supply with | .logic => false | .permit => s.guard.powered) ∧
    t.guard.permitSupply = (match supply with | .logic => s.guard.permitSupply | .permit => false) ∧
    t.link = s.link ∧
    { t.guard with
      a := s.guard.a, b := s.guard.b, linesCut := s.guard.linesCut
      powered := s.guard.powered, permitSupply := s.guard.permitSupply } = s.guard ∧
    ∀ x, { t.guard.arm x with unit := { (t.guard.arm x).unit with lines := (s.guard.arm x).unit.lines } } = s.guard.arm x) ∧
  (∀ (x : Arm) (line : PermitName) (overheats : Bool) (s : State), s.guard.powered = true →
    exec (.permitLineShorted x line overheats) s = .next { s with
      guard := s.guard.onUnit x fun u => { u with lines := u.lines.on line fun p =>
        if p.given then { p with short := if overheats then .off else .limited } else p } }) ∧
  (∀ p : PermitLine, (p.short = .none → p.arrives = p.given) ∧ (∀ b, (p.shorted b).given = p.given) ∧
    (p.given = true → ∀ b, (p.shorted b).arrives = false))

/-! ## Frames and dispatch -/

/-- FRAME_BAD_CHECK and FRAME_ABANDONED: the port counts the frame, its receiver goes on, and nothing else changes. That a
stalled frame counts at the character that ends the pause is the model's choice (log entry 20). -/
def Obligations.LostFramesAreCounted : Prop :=
  ∀ (port : Port) (chars : List Character) (s : State), s.guard.powered = true → (s.link.port port).rx = .hunt →
    ((Instr.frameBadCheck port chars).wellFormed = true →
      exec (.frameBadCheck port chars) s = .next (s.onPort port fun k =>
        { k with rx := (Receiver.hunt.run chars).1, badCheck := sat32 (k.badCheck + 1) })) ∧
    ((Instr.frameAbandoned port chars).wellFormed = true →
      exec (.frameAbandoned port chars) s = .next (s.onPort port fun k =>
        { k with rx := (Receiver.hunt.run chars).1, abandoned := sat32 (k.abandoned + 1) }))

/-- A frame formed as the guard forms frames is received whole by a receiver that hunts, which hunts again after it. -/
def Obligations.FrameBytesAreReceivedWhole : Prop :=
  ∀ f : Frame, f.payload.length ≤ 248 →
    Receiver.hunt.run (f.bytes.map fun b => Character.whole b false) = (.hunt, [.frame f])

/-- SUPERVISOR_REQUEST_ARRIVAL: what becomes of a good frame on the supervisor port, case by case. -/
def Obligations.SupervisorArrivalCases : Prop :=
  ∀ (kind tag : Byte) (p : List Byte) (s : State), s.guard.powered = true →
    let result := exec (.supervisorRequestArrival kind tag p) s
    let hunting := s.onSup fun k => { k with port := { k.port with rx := .hunt } }
    let overrun := hunting.onSup fun k => { k with port := { k.port with overrun := sat32 (k.port.overrun + 1) } }
    let refused := fun f : Frame =>
      (s.link.sup.isIdle = true → result = .next (hunting.onSup fun k => { k with slot := some f }.choose)) ∧
      (s.link.sup.isIdle = false → s.link.sup.refusals.length < 4 →
        result = .next (hunting.onSup fun k => { k with refusals := k.refusals ++ [⟨f, k.queue.length⟩] })) ∧
      (s.link.sup.isIdle = false → 4 ≤ s.link.sup.refusals.length → result = .next overrun)
    (isSupervisorKind kind = false → refused (unknownKindFrame kind tag)) ∧
    (isSupervisorKind kind = true → s.guard.mode = .init → refused (replyFrame kind tag (.refuse .notReady))) ∧
    (isSupervisorKind kind = true → s.guard.mode ≠ .init →
      (4 ≤ s.link.sup.queue.length → result = .next overrun) ∧
      (s.link.sup.queue.length < 4 → s.link.sup.isIdle = false →
        result = .next (hunting.onSup fun k => { k with queue := k.queue ++ [⟨kind, tag, p⟩] })) ∧
      (s.link.sup.isIdle = true →
        result = .next ((s.replied kind tag (s.guard.serve s.link kind p).2).conclude (s.guard.serve s.link kind p).1) ∧
        (supervisorLengthOk kind.toNat p = false → result = .next (s.replied kind tag (.refuse .badLength)))))

/-- Every request row of the two kinds of port is the arrival of a good frame of its kind (log entry 4). -/
def Obligations.RequestRowsAreArrivals : Prop :=
  ∀ (tag armByte : Byte) (p : List Byte) (x : Arm) (s : State),
    let arrives := fun kind q => exec (.supervisorRequestArrival kind tag q) s
    exec (.configure tag p) s = arrives 0x01#8 p ∧ exec (.start tag p) s = arrives 0x02#8 p ∧
    exec (.stop tag p) s = arrives 0x03#8 p ∧ exec (.restart tag p) s = arrives 0x04#8 p ∧
    exec (.fence tag p) s = arrives 0x05#8 p ∧ exec (.unfence tag p) s = arrives 0x06#8 p ∧
    exec (.loadPlan tag p) s = arrives 0x07#8 p ∧ exec (.dropPlan tag p) s = arrives 0x08#8 p ∧
    exec (.dropPlanLoaded tag armByte) s = arrives 0x08#8 [armByte, 1#8] ∧ exec (.claimFor tag p) s = arrives 0x09#8 p ∧
    exec (.revoke tag p) s = arrives 0x0A#8 p ∧ exec (.clearFaults tag p) s = arrives 0x0B#8 p ∧
    exec (.getStatus tag p) s = arrives 0x0C#8 p ∧ exec (.getRow tag p) s = arrives 0x0D#8 p ∧
    exec (.setCounters tag p) s = arrives 0x0E#8 p ∧ exec (.getCounters tag p) s = arrives 0x0F#8 p ∧
    (s.guard.powered = true →
      exec (.sample x tag p) s = .next (s.armArrival x ⟨0x20#8, tag, p⟩) ∧
      exec (.request x tag p) s = .next (s.armArrival x ⟨0x21#8, tag, p⟩) ∧
      exec (.skip x tag p) s = .next (s.armArrival x ⟨0x22#8, tag, p⟩) ∧
      exec (.release x tag p) s = .next (s.armArrival x ⟨0x23#8, tag, p⟩))

/-- TRANSMIT_END: the transmitter is free and takes the oldest reply, else the notice at the head; on the supervisor port
the reply's end empties the slot, and the next request or held refusal comes only after that choice. And a notice that an
event posts: it joins the tail of its queue, is sent at once at a port with nothing to send, and is dropped and counted at
a full queue; an event's notices go out one after the other. -/
def Obligations.TransmitEndChoosesNext : Prop :=
  (∀ (x : Arm) (s : State), s.guard.powered = true →
    exec (.transmitEnd (.arm x)) s = .next (s.onArmLink x fun k =>
      match k.replies, k.notices with
      | f :: rest, _ => { k with port := { k.port with tx := some ⟨true, f.bytes⟩ }, replies := rest }
      | [], n :: rest => { k with port := { k.port with tx := some ⟨false, n.frame.bytes⟩ }, notices := rest }
      | [], [] => { k with port := { k.port with tx := none } })) ∧
  (∀ (s : State) (sent : Sending), s.guard.powered = true → s.link.sup.port.tx = some sent →
    let freed : State := s.onSup fun k => { k with port := { k.port with tx := none }, slot := none }
    let chosen : State := match s.link.sup.notices with
      | n :: rest => freed.onSup fun k =>
          { k with port := { k.port with tx := some ⟨false, n.frame.bytes⟩ }, notices := rest }
      | [] => freed
    (∀ f, sent.reply = false → s.link.sup.slot = some f →
      exec (.transmitEnd .supervisor) s =
        .next (s.onSup fun k => { k with port := { k.port with tx := some ⟨true, f.bytes⟩ } })) ∧
    ((sent.reply = true ∨ s.link.sup.slot = none) →
      (s.link.sup.refusals = [] → s.link.sup.queue = [] → exec (.transmitEnd .supervisor) s = .next chosen) ∧
      (∀ f fs, s.link.sup.refusals = [] → s.link.sup.queue = f :: fs →
        exec (.transmitEnd .supervisor) s = .next ((chosen.onSup fun k => { k with queue := fs }).serveSupervisor f)) ∧
      (∀ r rs, s.link.sup.refusals = r :: rs → (r.ahead = 0 ∨ s.link.sup.queue = []) →
        exec (.transmitEnd .supervisor) s =
          .next (chosen.onSup fun k => { k with refusals := rs, slot := some r.reply }.choose)) ∧
      (∀ r rs f fs, s.link.sup.refusals = r :: rs → 0 < r.ahead → s.link.sup.queue = f :: fs →
        exec (.transmitEnd .supervisor) s = .next ((chosen.onSup fun k =>
          { k with queue := fs, refusals := k.refusals.map HeldRefusal.step }).serveSupervisor f)))) ∧
  ∀ l : Link, l.deliver [] = l ∧ (∀ ps qs, l.deliver (ps ++ qs) = (l.deliver ps).deliver qs) ∧
    l.deliver [.emptyArmQueues] = { l with a := { l.a with notices := [] }, b := { l.b with notices := [] } } ∧
    (∀ n,
      (32 ≤ l.sup.notices.length →
        l.deliver [.toHost n] = { l with sup := { l.sup with lost := min 65535 (l.sup.lost + 1) } }) ∧
      (l.sup.notices.length < 32 → l.sup.port.tx ≠ none →
        l.deliver [.toHost n] = { l with sup := { l.sup with notices := l.sup.notices ++ [n] } }) ∧
      (l.sup.notices = [] → l.sup.port.tx = none → l.sup.slot = none →
        l.deliver [.toHost n] = { l with sup := { l.sup with
          port := { l.sup.port with tx := some ⟨false, n.frame.bytes⟩ } } })) ∧
    ∀ x n,
      (8 ≤ (l.arm x).notices.length →
        l.deliver [.toArm x n] = l.onArm x fun k => { k with lost := min 65535 (k.lost + 1) }) ∧
      ((l.arm x).notices.length < 8 → (l.arm x).port.tx ≠ none →
        l.deliver [.toArm x n] = l.onArm x fun k => { k with notices := k.notices ++ [n] }) ∧
      ((l.arm x).notices = [] → (l.arm x).port.tx = none → (l.arm x).replies = [] →
        l.deliver [.toArm x n] = l.onArm x fun k => { k with port := { k.port with tx := some ⟨false, n.frame.bytes⟩ } })

/-- A good frame on an arm port, by its kind: at a full reply queue it is lost and counted, whatever its kind (that an
unknown kind is too, and that a SAMPLE lost in INIT counts as an overrun alone, are the model's, log entry 11); else an
unknown kind is answered UNKNOWN_KIND, under its kind plus 0x80 or 0x7F where that sum is a notice kind, and REQUEST, SKIP
and RELEASE are answered NOT_READY in INIT and BAD_LENGTH with a payload that is not of their length. -/
def Obligations.ArmArrivalCases : Prop :=
  (∀ (x : Arm) (kind tag : Byte) (p : List Byte) (s : State), s.guard.powered = true →
    let unknown := kind.toNat < 0x20 ∨ 0x23 < kind.toNat
    let lost := Host.Outcome.next (s.onArmLink x fun k =>
      { k with port := { k.port with rx := .hunt, overrun := sat32 (k.port.overrun + 1) } })
    let answered := fun f : Frame => Host.Outcome.next (s.onArmLink x fun k =>
      { k with port := { k.port with rx := .hunt }, replies := k.replies ++ [f] }.choose)
    (4 ≤ (s.link.arm x).replies.length →
      (unknown → exec (.armPortUnknownKind x kind tag p) s = lost) ∧ exec (.sample x tag p) s = lost ∧
      exec (.request x tag p) s = lost ∧ exec (.skip x tag p) s = lost ∧ exec (.release x tag p) s = lost) ∧
    ((s.link.arm x).replies.length < 4 →
      (unknown → exec (.armPortUnknownKind x kind tag p) s = answered (unknownKindFrame kind tag)) ∧
      (s.guard.mode = .init →
        exec (.request x tag p) s = answered ⟨0xA1#8, tag, [2#8]⟩ ∧
        exec (.skip x tag p) s = answered ⟨0xA2#8, tag, [2#8]⟩ ∧
        exec (.release x tag p) s = answered ⟨0xA3#8, tag, [2#8]⟩) ∧
      (s.guard.mode ≠ .init →
        (p.length ≠ 0 → exec (.request x tag p) s = answered ⟨0xA1#8, tag, [4#8]⟩ ∧
          exec (.skip x tag p) s = answered ⟨0xA2#8, tag, [4#8]⟩) ∧
        (p.length ≠ 2 → exec (.release x tag p) s = answered ⟨0xA3#8, tag, [4#8]⟩)))) ∧
  (∀ kind tag : Byte, (unknownKindFrame kind tag).payload = [5#8] ∧ (unknownKindFrame kind tag).tag = tag ∧
    let n := (kind.toNat + 128) % 256
    (unknownKindFrame kind tag).kind.toNat =
      if (0x40 ≤ n ∧ n ≤ 0x46) ∨ (0x60 ≤ n ∧ n ≤ 0x64) then 0x7F else n)

/-! ## Configuration and modes -/

/-- CONFIGURE without a change of geometry, in SETUP where no PLAN claim stands: every parameter named takes the value
carried brought to its range and no other changes; the reply lists the clamped items; an arm whose actions changed has its
level computed anew, its permit lines and its escalation timers following, and nothing is posted. The ranges are those of
the table of parameters. That a clamped item repeats its arm byte as carried, a common parameter's too, is the model's
reading (log entry 23). -/
def Obligations.ConfigureStoresItems : Prop :=
  (∀ (s : State) (tag : Byte) (p : List Byte), s.servesHost → s.guard.mode = .setup →
    supervisorLengthOk 0x01 p = true → firstBadItem [] 0 (parseItems p) = none →
    let items := parseItems p
    let c := items.foldl ConfigSet.apply s.guard.cfg
    let value := fun r : RawItem => match paramOf r.ident with
      | some q => max q.range.1 (min q.range.2 r.value)
      | none => r.value
    let clamped := items.filter fun r => value r ≠ r.value
    (∀ r ∈ items, ∃ named, r.target = some named ∧ c.valueOf named = value r) ∧
    (∀ named, (∀ r ∈ items, r.target ≠ some named) → c.valueOf named = s.guard.cfg.valueOf named) ∧
    (s.guard.cfg.sameGeometry c = true → (∀ k ∈ s.guard.claims, k.isPlan = false) →
      ∃ g : Guard, exec (.configure tag p) s = .next { s.replied 0x01#8 tag (.ok (byte clamped.length ::
            clamped.flatMap fun r => [byte r.ident, byte r.armByte] ++ les32 (value r))) with guard := g } ∧
        { g with a := s.guard.a, b := s.guard.b } = { s.guard with cfg := c } ∧
        ∀ x,
          let was := (s.guard.arm x).unit
          let is := (g.arm x).unit
          let new := levelOf (c.arm x) was.sources
          let changed := (c.arm x).actions ≠ (s.guard.cfg.arm x).actions ∧ new ≠ was.level
          { g.arm x with unit := was } = s.guard.arm x ∧ is.sources = was.sources ∧
          (¬changed → is = was) ∧
          (changed → is.level = new ∧ g.linesFollow x ∧
            is.slowTimer = (if was.level = .none ∧ new = .slow then some (s.guard.now + (c.arm x).tSlow) else none) ∧
            is.holdTimer = (if was.level.code < 2 ∧ new = .hold then some (s.guard.now + (c.arm x).tHold) else none)))) ∧
  (∀ row ∈ [(1, CommonParam.nc, (1 : Int), (32 : Int)), (2, .nr, 1, 24), (3, .pitch, 40, 640), (4, .x0, -32768, 32767),
      (5, .y0, -32768, 32767), (6, .zEnter, 0, 32767), (7, .zHyst, 0, 1000), (8, .tAge, 1, 10000), (9, .tWaitMax, 0, 65535),
      (10, .scrubPeriod, 10, 1000), (11, .tLeak, 1, 1000), (12, .retireThreshold, 1, 63)],
    paramOf row.1 = some (.common row.2.1) ∧ row.2.1.range = row.2.2) ∧
  (∀ row ∈ [(16, ArmParam.radius, (0 : Int), (2000 : Int)), (17, .tReact, 0, 500), (18, .decel, 10, 1000),
      (19, .tMin, 1, 1000), (20, .tGap, 2, 2000), (21, .dTol, 0, 1000), (22, .dualRequired, 0, 1), (23, .vSlow, 0, 10000),
      (24, .vStill, 0, 1000), (25, .tSlow, 1, 5000), (26, .tHold, 1, 5000), (32, .action .reach, 0, 3),
      (33, .action .intrusion, 0, 3), (34, .action .fenceEntry, 0, 3), (35, .action .sampleGap, 0, 3),
      (36, .action .sampleEarly, 0, 3), (37, .action .disagree, 0, 3), (48, .notify .reach, 0, 1),
      (49, .notify .intrusion, 0, 1), (50, .notify .fenceEntry, 0, 1), (51, .notify .sampleGap, 0, 1),
      (52, .notify .sampleEarly, 0, 1), (53, .notify .disagree, 0, 1), (54, .notify .noPosition, 0, 1),
      (55, .notify .revoked, 0, 1), (56, .notify .escalated, 0, 1)],
    paramOf row.1 = some (.perArm row.2.1) ∧ row.2.1.range = row.2.2)

/-- A change of grid geometry: the fence layer and both vacate sets are emptied, the map is rewritten from the records,
each footprint is placed anew from its recorded box, with the zone state kept, the scrub cursor is restarted. That a clamped
item of the reply repeats its arm byte as carried, a common parameter's too, is the model's reading (log entry 23). -/
def Obligations.GeometryChangeRewritesMap : Prop :=
  ∀ (s : State) (tag : Byte) (p : List Byte), s.servesHost → s.guard.mode = .setup →
    supervisorLengthOk 0x01 p = true → firstBadItem [] 0 (parseItems p) = none →
    storeWf s.guard.store = true → s.guard.claims = [] →
    let items := parseItems p
    let c := items.foldl ConfigSet.apply s.guard.cfg
    s.guard.cfg.sameGeometry c = false → (s.guard.cfg.nc = c.nc ∨ s.guard.noSectionFor c = false) →
      ∃ t, exec (.configure tag p) s = .next t ∧
        s.answered t 0x01#8 tag (.ok (byte (clampedCount items + 128) :: clampedBytes items)) ∧
        t.guard.cfg = c ∧ t.guard.fences = [] ∧ t.guard.claims = [] ∧ t.guard.mode = .setup ∧
        t.guard.now = s.guard.now ∧ t.guard.sections = s.guard.sections ∧ t.guard.poisoned = s.guard.poisoned ∧
        t.guard.scrub = ⟨0, s.guard.now, 10 * c.scrubPeriod, true⟩ ∧ t.guard.mapAgrees ∧
        ∀ x, (t.guard.arm x).vacate = [] ∧ (t.guard.arm x).calculator =
            (let k := (s.guard.arm x).calculator
             match k.box with
             | none => k
             | some b => { k with footprint := if k.zone = .inside then b.cellRange c else none }) ∧
          (t.guard.arm x).intake = (s.guard.arm x).intake ∧ (t.guard.arm x).verdict = (s.guard.arm x).verdict ∧
          (t.guard.arm x).unit.sources = (s.guard.arm x).unit.sources ∧
          (∀ i, (t.guard.arm x).slot i = (s.guard.arm x).slot i)

/-- Refused CONFIGURE, FENCE, UNFENCE and CLAIM_FOR requests change no record and no entry: in the order of their tests. That
the RANGE of a parameter named twice carries the index of its second item is the model's reading (log entry 23). -/
def Obligations.RefusedRequestsChangeNothing : Prop :=
  ∀ (s : State) (tag : Byte) (p : List Byte), s.servesHost →
    (supervisorLengthOk 0x01 p = true →
      let result := exec (.configure tag p) s
      let items := parseItems p
      let c := items.foldl ConfigSet.apply s.guard.cfg
      (s.guard.mode ≠ .setup → result = .next (s.replied 0x01#8 tag (.refuse .wrongMode))) ∧
      (s.guard.mode = .setup →
        (∀ i, firstBadItem [] 0 items = some i → result = .next (s.replied 0x01#8 tag (.refuseWith .range i))) ∧
        (firstBadItem [] 0 items = none →
          (s.guard.cfg.sameGeometry c = false → s.guard.claims ≠ [] →
            result = .next (s.replied 0x01#8 tag (.refuse .claimsPresent))) ∧
          ((s.guard.cfg.sameGeometry c = true ∨ s.guard.claims = []) → s.guard.cfg.nc ≠ c.nc →
            s.guard.noSectionFor c = true →
            result = .next (s.replied 0x01#8 tag (.refuseWith .invalidConfig 5)))))) ∧
    (p.length = 7 → shapeAt s.guard.cfg p 0 = none →
      exec (.fence tag p) s = .next (s.replied 0x05#8 tag (.refuse .range)) ∧
      exec (.unfence tag p) s = .next (s.replied 0x06#8 tag (.refuse .range))) ∧
    (p.length = 8 →
      (armOf (u8 p 0) = none ∨ shapeAt s.guard.cfg p 1 = none →
        exec (.claimFor tag p) s = .next (s.replied 0x09#8 tag (.refuse .range))) ∧
      (∀ x, armOf (u8 p 0) = some x → shapeAt s.guard.cfg p 1 ≠ none → 2 ≤ s.guard.claimCount x →
        exec (.claimFor tag p) s = .next (s.replied 0x09#8 tag (.refuse .noRoom))))

/-- START: from SETUP when every consistency check passes, from DRAINING without tests, GUARD is entered; the first check
that fails, in the order of the table, is named and nothing changes; in GUARD nothing changes. With no waiting claim the
evaluation changes nothing. -/
def Obligations.StartEntersGuard : Prop :=
  ∀ (s : State) (tag : Byte), s.servesHost →
    let c := s.guard.cfg
    let result := exec (.start tag []) s
    let names := fun n => result = .next (s.replied 0x02#8 tag (.refuseWith .invalidConfig n))
    let xFits := c.x0 + (c.nc : Int) * c.pitch ≤ 32767
    let yFits := c.y0 + (c.nr : Int) * c.pitch ≤ 32767
    let aFits := c.a.tMin < c.a.tGap
    let bFits := c.b.tMin < c.b.tGap
    (s.guard.mode = .guarding → result = .next (s.replied 0x02#8 tag (.ok []))) ∧
    (s.guard.mode = .setup →
      (¬xFits → names 1) ∧ (xFits → ¬yFits → names 2) ∧ (xFits → yFits → ¬aFits → names 3) ∧
      (xFits → yFits → aFits → ¬bFits → names 4) ∧ (xFits → yFits → aFits → bFits → ¬s.guard.someActive → names 5)) ∧
    (s.guard.mode = .draining ∨ (s.guard.mode = .setup ∧ xFits ∧ yFits ∧ aFits ∧ bFits ∧ s.guard.someActive) →
      (∃ t, result = .next t ∧ s.answered t 0x02#8 tag (.ok []) ∧ t.guard.mode = .guarding ∧
        { s.guard with mode := .guarding }.followedBy t.guard) ∧
      ((∀ k ∈ s.guard.claims, k.phase = .held) →
        result = .next { s.replied 0x02#8 tag (.ok []) with
          guard := { s.guard with mode := .guarding }
          link := (s.replied 0x02#8 tag (.ok [])).link.deliver [.toHost (.mode .guarding .start)] }))

/-- STOP: outside GUARD nothing changes; in GUARD the waiting PLAN claims leave, and the mode becomes DRAINING while a
held PLAN claim is left, else SETUP. With no other claim waiting and no plan to end, WITHDRAWN for each in the order of
creation and then MODE are all that is posted; the last claim of a FINISHING slot brings its PLAN_END after them, at the
end of the event (log entry 25). -/
def Obligations.StopWithdrawsAndDrains : Prop :=
  ∀ (s : State) (tag : Byte), s.servesHost →
    (s.guard.mode ≠ .guarding → exec (.stop tag []) s = .next (s.replied 0x03#8 tag (.ok [0#8, byte s.guard.mode.code]))) ∧
    (s.guard.mode = .guarding → s.guard.keysDiffer →
      let m : Mode := if (s.guard.claims.any fun c => c.isHeld && c.isPlan) then .draining else .setup
      let leaving := s.guard.claims.filter fun c => c.isWaiting && c.isPlan
      let replied := s.replied 0x03#8 tag (.ok [byte leaving.length, byte m.code])
      ∃ t, exec (.stop tag []) s = .next t ∧
        s.answered t 0x03#8 tag (.ok [byte leaving.length, byte m.code]) ∧
        (∀ c ∈ t.guard.claims, c.isPlan = true → c.phase = .held ∧ t.guard.mode = .draining) ∧
        { s.guard with mode := m }.followedBy t.guard ∧
        ((∀ c ∈ s.guard.claims, c.phase = .waiting → c.isPlan = true) → s.guard.nothingEnds →
          t.link = replied.link.deliver (withdrawals leaving ++ [.toHost (.mode m .stop)])) ∧
        (∀ c x i n q, s.guard.claims = [c] → c.phase = .waiting → c.arm = x → c.origin = .plan i n →
          (s.guard.arm x).slot i = .finishing q →
          (t.guard.arm x).slot i = .empty ∧
          t.link = replied.link.deliver (withdrawals [c] ++ [.toHost (.mode .setup .stop)] ++
            planEnds ⟨x, i, q.planId, q.picked, q.skipped, sat16 (q.missed + 1), q.endReason⟩)))

/-- RESTART, served at its arrival or taken from the head of the queue at the end of a frame: the two columns of its table,
whatever the retry of the store finds; and what follows its reply: the arm queues emptied, FAULT of NO_POSITION for each arm
where it was removed and is notified, POISONED for each cell whose verify failed, MODE(SETUP, RESTART). Every counter is
kept, but that each of those cells adds one to the poisoned count of its section. The requests behind it stay queued. -/
def Obligations.RestartClearsAndKeeps : Prop :=
  let restarts := fun (g : Guard) (l : Link) (t : State) =>
    let asserts := fun x : Arm => !(g.arm x).unit.sources.noPosition && (g.cfg.arm x).notify.noPosition
    t.link = l.deliver ([.emptyArmQueues] ++
      (([Arm.A, .B].filter asserts).map fun x => .toHost (.fault x .noPosition .asserted .hold .hold)) ++
      (t.guard.poisoned.map fun c => .toHost (.poisoned c none .restart)) ++ [.toHost (.mode .setup .restart)]) ∧
    t.guard.mode = .setup ∧ t.guard.claims = [] ∧ t.guard.lastGranted = .B ∧ t.guard.mapAgrees ∧
    t.guard.leakTimer = some (g.now + 10 * g.cfg.tLeak) ∧
    t.guard.scrub = ⟨0, g.now, 10 * g.cfg.scrubPeriod, true⟩ ∧
    (∀ x, (t.guard.arm x).intake = ⟨none, none, none, .disarmed, none⟩ ∧
      (t.guard.arm x).calculator = ⟨.unknown, none, none, 0⟩ ∧ (t.guard.arm x).verdict = ⟨false, false, false⟩ ∧
      (∀ src, (t.guard.arm x).unit.sources.has src = true ↔ src = .noPosition) ∧
      (t.guard.arm x).unit.level = .hold ∧ (t.guard.arm x).unit.slowTimer = none ∧
      (t.guard.arm x).unit.holdTimer = none ∧ (t.guard.arm x).vacate = [] ∧
      (∀ i, (t.guard.arm x).slot i = .empty) ∧ (t.guard.arm x).nextNumber = 0#8 ∧
      (t.guard.arm x).counters = (g.arm x).counters ∧ (t.link.arm x).notices = []) ∧
    (∀ n, (t.guard.sections.get n).errors = 0 ∧ t.guard.isRetired n = g.isRetired n ∧
      (t.guard.sections.get n).corrected = (g.sections.get n).corrected ∧
      (t.guard.sections.get n).uncorrectable = (g.sections.get n).uncorrectable) ∧
    (∀ n < 4, (t.guard.sections.get n).poisonings =
      (t.guard.poisoned.filter fun c => c.sec = n).foldl (fun k _ => sat32 (k + 1)) (g.sections.get n).poisonings) ∧
    t.guard.cfg = g.cfg ∧ t.guard.fences = g.fences ∧ t.guard.now = g.now ∧ t.guard.scrubPasses = g.scrubPasses
  (∀ (s : State) (tag : Byte), s.servesHost → storeWf s.guard.store = true →
    ∃ t, exec (.restart tag []) s = .next t ∧ restarts s.guard (s.replied 0x04#8 tag (.ok [])).link t ∧
      (s.goodReads t → t.guard.poisoned = []) ∧ t.link.sup.queue = s.link.sup.queue) ∧
  ∀ (s : State) (tag : Byte) (sent : Sending) (fs : List Frame), s.considers → storeWf s.guard.store = true →
    s.link.sup.port.tx = some sent → (sent.reply = true ∨ s.link.sup.slot = none) → s.link.sup.refusals = [] →
    s.link.sup.queue = ⟨0x04#8, tag, []⟩ :: fs →
    let freed : State := s.onSup fun k => { k with port := { k.port with tx := none }, slot := none, queue := fs }
    let chosen : State := match s.link.sup.notices with
      | n :: rest => freed.onSup fun k =>
          { k with port := { k.port with tx := some ⟨false, n.frame.bytes⟩ }, notices := rest }
      | [] => freed
    ∃ t, exec (.transmitEnd .supervisor) s = .next t ∧
      restarts s.guard (chosen.onSup fun k => k.place (replyFrame 0x04#8 tag (.ok []))).link t ∧
      (s.goodReads t → t.guard.poisoned = []) ∧ t.link.sup.queue = fs

/-! ## Fences -/

/-- FENCE: the cells of the shape join the fence layer, and UNFENCE: they leave it, whatever their reads find; the reply's
three counts are of the cells of the shape. With good reads every waiting claim whose cell set has a cell that joined or
left is formed anew: its effective set is what is left of its cell set, the cells that leave it leave its reservations, and
an empty one is bounced EMPTY, its entry missed. -/
def Obligations.FenceAndUnfence : Prop :=
  ∀ (s : State) (tag : Byte) (p : List Byte) (shape : Shape), s.servesHost → p.length = 7 →
    shapeAt s.guard.cfg p 0 = some shape →
    let cells := shape.cells s.guard.cfg
    let fenced := cells.filter fun c => c ∈ s.guard.fences
    let fresh := cells.filter fun c => c ∉ s.guard.fences
    let formedAnew := fun (t : State) (changed : CellSet) (link : Link) =>
      s.goodReads t → storeWf s.guard.store = true → s.guard.trayInOrder → ∀ k ∈ s.guard.claims, k.phase = .waiting →
        let own := k.shape.cells s.guard.cfg
        let kept := own.filter fun d => d ∉ t.guard.fences ∧ s.guard.isRetired d.sec = false ∧ d ∉ s.guard.poisoned
        ((∀ d ∈ own, d ∉ changed) →
          ∃ d ∈ t.guard.claims, k.keeps d ∧ d.effective = k.effective ∧ d.excluded = k.excluded) ∧
        ((∃ d ∈ own, d ∈ changed) →
          (kept ≠ [] → ∃ d ∈ t.guard.claims, k.keeps d ∧ d.effective = kept ∧ d.excluded = own.length - kept.length ∧
            ∀ e ∈ d.reserved, e ∈ kept) ∧
          (kept = [] → (∀ d ∈ t.guard.claims, d.key ≠ k.key) ∧
            ((∀ d ∈ s.guard.claims, d.key ≠ k.key → d.phase = .held) → s.guard.nothingEnds →
              t.link = link.deliver [.toArm k.arm (.bounced k.number k.origin .empty)] ∧
              ∀ i n q, k.origin = .plan i n → (s.guard.arm k.arm).slot i = .active q →
                (t.guard.arm k.arm).slot i = .active { q with missed := sat16 (q.missed + 1) })))
    (∃ t nAdded nPending, exec (.fence tag p) s = .next t ∧
      s.answered t 0x05#8 tag (threeCounts nAdded nPending fenced.length) ∧
      nAdded + nPending + fenced.length = cells.length ∧
      (s.guard.goodFor (s.guard.draws cells) →
        nPending = (fresh.filter fun c => (s.guard.entryOf c).owner.isSome).length) ∧
      (∀ c, c ∈ t.guard.fences ↔ c ∈ s.guard.fences ∨ c ∈ cells) ∧
      formedAnew t fresh (s.replied 0x05#8 tag (threeCounts nAdded nPending fenced.length)).link ∧
      { s.guard with fences := t.guard.fences }.followedBy t.guard) ∧
    (∃ t nRemoved nCancelled, exec (.unfence tag p) s = .next t ∧
      s.answered t 0x06#8 tag (threeCounts nRemoved nCancelled fresh.length) ∧
      nRemoved + nCancelled + fresh.length = cells.length ∧
      (s.guard.goodFor (s.guard.draws cells) →
        nCancelled = (fenced.filter fun c => (s.guard.entryOf c).owner.isSome).length) ∧
      (∀ c, c ∈ t.guard.fences ↔ c ∈ s.guard.fences ∧ c ∉ cells) ∧
      formedAnew t fenced (s.replied 0x06#8 tag (threeCounts nRemoved nCancelled fresh.length)).link ∧
      { s.guard with fences := t.guard.fences }.followedBy t.guard)

/-! ## Plans -/

/-- LOAD_PLAN: the plan goes into the slot named, when that is neither ACTIVE nor FINISHING, or into the one that AUTO
chooses: the EMPTY one, slot 0 of two, else the LOADED one; it is ACTIVE when the arm has no ACTIVE slot, else LOADED; a
refused one changes no slot. An entry is valid when its shape is and its pick point, where it has one, lies in a cell of the
shape; a priority above 7 is stored as 7 and marked in the reply's clamped entries. -/
def Obligations.LoadPlanFillsSlot : Prop :=
  ∀ (s : State) (tag : Byte) (p : List Byte), s.servesHost → supervisorLengthOk 0x07 p = true →
    let result := exec (.loadPlan tag p) s
    let arm := armOf (u8 p 0 % 16)
    let choice := slotChoiceOf (u8 p 0 / 16)
    let refused := fun r : Result => result = .next (s.replied 0x07#8 tag (.refuse r))
    (arm = none ∨ choice = none ∨ u8 p 4 = 0 ∨ 16 < u8 p 4 → refused .range) ∧
    (∀ x ch, arm = some x → choice = some ch → 1 ≤ u8 p 4 → u8 p 4 ≤ 16 →
      let bytes := fun i => p.drop (5 + 12 * i)
      let shape := fun i => parseShape (u8 (bytes i) 0) ((bytes i).drop 2)
      let priority := fun i => u8 (bytes i) 1 % 16
      let pick := fun i => if u8 (bytes i) 1 / 128 = 1 then some (s16 (bytes i) 8, s16 (bytes i) 10) else none
      let valid := fun i => ∃ sh, shape i = some sh ∧ sh.valid s.guard.cfg.nc s.guard.cfg.nr = true ∧
        ∀ x y, pick i = some (x, y) → ∃ k, s.guard.cfg.cellAt x y = some k ∧ k ∈ sh.cells s.guard.cfg
      (∀ i < u8 p 4, ¬valid i → (∀ j < i, valid j) → result = .next (s.replied 0x07#8 tag (.refuseWith .range i))) ∧
      ((∀ i < u8 p 4, valid i) →
        let a := s.guard.arm x
        let indices := List.range (u8 p 4)
        let entries := indices.filterMap fun i => (shape i).map fun sh => (⟨sh, min 7 (priority i), pick i⟩ : PlanEntry)
        let clamped := (indices.map fun i => if 7 < priority i then 2 ^ i else 0).sum
        let plan : Plan := {
          planId := u16 p 1, passes := u8 p 3, entries := entries, cursor := 0, passesCompleted := 0
          issued := 0, picked := 0, skipped := 0, missed := 0, endReason := none }
        let behind := a.slot0.isActive || a.slot1.isActive
        let goesTo := fun i => result = .next { s.replied 0x07#8 tag (.ok ([byte i.code,
              byte (flagBit (!behind) 0 + flagBit (a.slot i).isLoaded 1)] ++ le16 clamped)) with
            guard := s.guard.onArm x fun a => a.setSlot i (if behind then .loaded plan else .active plan) }
        let usable := fun i => a.slot i = .empty ∨ (a.slot i).isLoaded = true
        (∀ i, ch = .named i →
          (usable i → goesTo i) ∧ ((a.slot i).isActive = true → refused .slotActive) ∧
          (∀ q, a.slot i = .finishing q → refused .slotFinishing)) ∧
        (ch = .auto →
          (a.slot0 = .empty → goesTo .slot0) ∧
          (a.slot0 ≠ .empty → a.slot1 = .empty → goesTo .slot1) ∧
          (a.slot0.isLoaded = true → a.slot1 ≠ .empty → goesTo .slot0) ∧
          (¬usable .slot0 → a.slot1.isLoaded = true → goesTo .slot1) ∧
          (¬usable .slot0 → ¬usable .slot1 → refused .slotFinishing))))

/-- DROP_PLAN: the ACTIVE slot stops issuing, its waiting claims leave, and a LOADED slot behind it becomes ACTIVE; naming
LOADED, the LOADED slot becomes EMPTY without a notice; with no such slot, NOT_FOUND. With no other claim waiting,
WITHDRAWN for each of its waiting claims, older first by the model's choice (log entry 39), and PLAN_END when none is left,
are all that is posted. -/
def Obligations.DropPlanActsOnSlot : Prop :=
  (∀ (s : State) (tag armByte : Byte), s.servesHost →
    (armOf armByte.toNat = none → exec (.dropPlanLoaded tag armByte) s = .next (s.replied 0x08#8 tag (.refuse .range))) ∧
    (∀ x, armOf armByte.toNat = some x → (s.guard.arm x).loadedPlan = none →
      exec (.dropPlanLoaded tag armByte) s = .next (s.replied 0x08#8 tag (.refuse .notFound))) ∧
    (∀ x i q, armOf armByte.toNat = some x → (s.guard.arm x).loadedPlan = some (i, q) →
      exec (.dropPlanLoaded tag armByte) s = .next { s.replied 0x08#8 tag (.ok (le16 q.planId ++ [0#8, 1#8])) with
        guard := s.guard.onArm x fun a => a.setSlot i .empty })) ∧
  ∀ (s : State) (tag : Byte) (p : List Byte), s.servesHost → p.length = 2 →
    (armOf (u8 p 0) = none ∨ 1 < u8 p 1 → exec (.dropPlan tag p) s = .next (s.replied 0x08#8 tag (.refuse .range))) ∧
    (∀ x, armOf (u8 p 0) = some x → u8 p 1 = 0 → (s.guard.arm x).activePlan = none →
      exec (.dropPlan tag p) s = .next (s.replied 0x08#8 tag (.refuse .notFound))) ∧
    (∀ x i q, armOf (u8 p 0) = some x → u8 p 1 = 0 → (s.guard.arm x).activePlan = some (i, q) → s.guard.keysDiffer →
      let leaving := s.guard.claims.filter fun c => c.isWaiting && c.fromSlot x i
      let emptied := !(s.guard.claims.any fun c => c.isHeld && c.fromSlot x i)
      let activated := ((s.guard.arm x).slot i.other).isLoaded
      let reply : Reply := .ok (le16 q.planId ++ [byte leaving.length, byte (flagBit emptied 0 + flagBit activated 1)])
      ∃ t, exec (.dropPlan tag p) s = .next t ∧ s.answered t 0x08#8 tag reply ∧
        (emptied = true → (t.guard.arm x).slot i = .empty) ∧
        ((t.guard.arm x).slot i = .empty ∨ ∃ r, (t.guard.arm x).slot i = .finishing r ∧ r.endReason = some .dropped ∧
          r.planId = q.planId ∧ r.cursor = q.cursor ∧ r.passesCompleted = q.passesCompleted ∧ r.issued = q.issued) ∧
        (∀ r, (s.guard.arm x).slot i.other = .loaded r → ∃ r', (t.guard.arm x).slot i.other = .active r' ∧ r.sameCourse r') ∧
        (∀ c ∈ t.guard.claims, c.fromSlot x i = true → c.phase = .held) ∧
        (s.guard.arm x.other).keeps (t.guard.arm x.other) ∧
        { s.guard with a := t.guard.a, b := t.guard.b }.followedBy t.guard ∧
        ((∀ c ∈ s.guard.claims, c.phase = .waiting → c.fromSlot x i = true) → s.guard.mode ≠ .draining → q.missed ≤ 65535 →
          t.link = (s.replied 0x08#8 tag reply).link.deliver (withdrawals leaving ++
            if emptied then planEnds ⟨x, i, q.planId, q.picked, q.skipped, min 65535 (q.missed + leaving.length), some .dropped⟩
            else [])))

/-! ## Claims -/

/-- CLAIM_FOR with no waiting claim in the table and good reads: a SUPERVISOR claim at priority 7 under the next claim
number, or the one after it when a claim of the arm has that, HELD at once when every cell of its effective set is
available to the arm, else WAITING with every cell of it reserved; EMPTY when no cell is left. A grant posts GRANTED alone
and adds to the counters of GRANTS and CELLS_EXCLUDED; a claim that waits posts and counts nothing. -/
def Obligations.ClaimForMakesClaim : Prop :=
  ∀ (s : State) (tag : Byte) (p : List Byte) (x : Arm) (shape : Shape), s.servesHost → p.length = 8 →
    armOf (u8 p 0) = some x → shapeAt s.guard.cfg p 1 = some shape → s.guard.claimCount x < 2 →
    (∀ c ∈ s.guard.claims, c.phase = .held ∧ c.reserving = .no) →
    let cells := shape.cells s.guard.cfg
    let kept := cells.filter fun c => !(s.guard.entryOf c).isExcluded
    let excluded := cells.length - kept.length
    let claim := s.guard.newClaim x .supervisor shape kept excluded 7
    let free := (s.guard.arm x).nextNumber
    s.guard.goodFor (s.guard.draws cells + s.guard.draws kept) →
      (claim.number = if ∃ c ∈ s.guard.claims, c.arm = x ∧ c.number = free then free + 1 else free) ∧
      (kept = [] → exec (.claimFor tag p) s = .next { s.replied 0x09#8 tag (.refuse .empty) with
        guard := s.guard.drawn (s.guard.draws cells) }) ∧
      (kept ≠ [] → ∃ t, exec (.claimFor tag p) s = .next t ∧
        let granted : Bool := kept.all fun c => (s.guard.entryOf c).availableTo x
        t.link = (s.replied 0x09#8 tag (.ok ([claim.number] ++ le16 kept.length ++ le16 excluded))).link.deliver
          (if granted then [.toArm x (.granted claim.number .supervisor 0 none kept.length excluded)] else []) ∧
        (∀ n < 4, let k := (s.guard.arm x).counters.selectable.get n
          (t.guard.arm x).counters.selectable.get n = if granted then k.atGrant excluded else k) ∧
        (granted = true → t.guard.claims = s.guard.claims ++ [claim.granted] ∧ t.guard.lastGranted = x) ∧
        (granted = false →
          ∃ c, t.guard.claims = s.guard.claims ++ [c] ∧ claim.keeps c ∧ c.phase = .waiting ∧ c.reserving = .senior ∧
            ∀ d, d ∈ c.reserved ↔ d ∈ kept) ∧
        (t.guard.arm x).nextNumber = claim.number + 1 ∧
        { s.guard.onArm x (fun a => { a with nextNumber := claim.number + 1 }) with
          claims := t.guard.claims }.followedBy t.guard)

/-- The order of the candidates at an evaluation with one waiting claim of each arm in the table, any held claims beside
them, and good reads: that of a START taken in DRAINING or in SETUP, and that of a RELEASE which frees a cell, the claim
released gone. `f` comes first by priority, then by wait start, then as the arm not granted last. It is granted when no
cell stands in its way, and at priority 7 else reserves what is not the other's, a junior leaving the senior's cells alone;
`k` is then tested against the map as `f` left it; a junior becomes the senior when the senior is granted. And of an arm's
waiting claims the first in the table is the eligible one. -/
def Obligations.CandidatesAreTakenInOrder : Prop :=
  let contest := fun (g : Guard) (t : State) => ∀ f k : Claim,
    (g.claims.filter Claim.isWaiting = [f, k] ∨ g.claims.filter Claim.isWaiting = [k, f]) → k.arm = f.arm.other →
    (∀ c ∈ g.claims, c.phase = .held → c.reserving = .no) →
    (∀ c ∈ g.claims, c.reserving = .no → c.reserved = []) → (∀ d ∈ f.reserved, d ∉ k.reserved) →
    (k.priority < f.priority ∨ (f.priority = k.priority ∧ (f.waitStart < k.waitStart ∨
      (f.waitStart = k.waitStart ∧ g.lastGranted ≠ f.arm)))) →
    let clear := fun (c : Claim) (d : Cell) => g.ownedBy c.arm.other d = false ∧ d ∉ g.poisoned ∧
      (g.ownedBy c.arm d = true ∨ (d ∉ g.fences ∧ g.isRetired d.sec = false))
    let rank := fun own others : Reserving => if own ≠ .no then own else if others = .no then .senior else .junior
    let succeeded := fun own gone : Reserving => if own = .junior ∧ gone = .senior then .senior else own
    let granted := fun c : Claim => c.granted ∈ t.guard.claims
    let waits := fun (c : Claim) (r : Reserving) (cells : Cell → Prop) =>
      ∃ d ∈ t.guard.claims, c.keeps d ∧ d.phase = .waiting ∧ d.effective = c.effective ∧ d.reserving = r ∧
        ∀ e, e ∈ d.reserved ↔ cells e
    let free := fun (c : Claim) (barred : Cell → Prop) => ∀ d ∈ c.effective, clear c d ∧ ¬barred d
    (free f (· ∈ k.reserved) →
      granted f ∧
      (free k (· ∈ f.effective) → granted k ∧ t.guard.lastGranted = k.arm) ∧
      (¬free k (· ∈ f.effective) →
        t.guard.lastGranted = f.arm ∧
        (k.priority < 7 → waits k (succeeded k.reserving f.reserving) (· ∈ k.reserved)) ∧
        (k.priority = 7 → waits k (rank (succeeded k.reserving f.reserving) .no)
          fun e => e ∈ k.reserved ∨ e ∈ k.effective))) ∧
    (¬free f (· ∈ k.reserved) → f.priority < 7 →
      (free k (· ∈ f.reserved) →
        granted k ∧ t.guard.lastGranted = k.arm ∧ waits f (succeeded f.reserving k.reserving) (· ∈ f.reserved)) ∧
      (¬free k (· ∈ f.reserved) → t.guard.lastGranted = g.lastGranted ∧
        waits f f.reserving (· ∈ f.reserved) ∧ waits k k.reserving (· ∈ k.reserved))) ∧
    (¬free f (· ∈ k.reserved) → f.priority = 7 →
      let r := rank f.reserving k.reserving
      let reserved := fun e => e ∈ f.reserved ∨
        (e ∈ f.effective ∧ e ∉ k.reserved ∧ ¬(r = .junior ∧ k.reserving = .senior ∧ e ∈ k.effective))
      (free k reserved →
        granted k ∧ t.guard.lastGranted = k.arm ∧ waits f (succeeded r k.reserving) reserved) ∧
      (¬free k reserved → t.guard.lastGranted = g.lastGranted ∧ waits f r reserved ∧
        (k.priority < 7 → waits k k.reserving (· ∈ k.reserved)) ∧
        (k.priority = 7 →
          let q := rank k.reserving r
          waits k q fun e => e ∈ k.reserved ∨
            (e ∈ k.effective ∧ ¬reserved e ∧ ¬(q = .junior ∧ r = .senior ∧ e ∈ f.effective)))))
  (∀ (s : State) (tag : Byte), s.servesHost → storeWf s.guard.store = true → s.guard.trayInOrder →
    let c := s.guard.cfg
    (s.guard.mode = .draining ∨ (s.guard.mode = .setup ∧ c.x0 + (c.nc : Int) * c.pitch ≤ 32767 ∧
      c.y0 + (c.nr : Int) * c.pitch ≤ 32767 ∧ c.a.tMin < c.a.tGap ∧ c.b.tMin < c.b.tGap ∧ s.guard.someActive)) →
    ∃ t, exec (.start tag []) s = .next t ∧ s.answered t 0x02#8 tag (.ok []) ∧ (s.goodReads t → contest s.guard t)) ∧
  (∀ (s : State) (x : Arm) (tag number outcome : Byte) (c : Claim), s.servesArm x → outcome.toNat ≤ 1 →
    s.guard.claim? ⟨x, number⟩ = some c → c.phase = .held → (s.guard.arm x).calculator.zone = .clear →
    storeWf s.guard.store = true → s.guard.trayInOrder →
    let released := { s.guard with claims := s.guard.claims.filter fun d => d.key ≠ c.key }
    (∃ d ∈ c.effective, released.ownedBy .A d = false ∧ released.ownedBy .B d = false ∧ d ∉ released.fences ∧
      released.isRetired d.sec = false ∧ d ∉ released.poisoned) →
    ∃ t, exec (.release x tag [number, outcome]) s = .next t ∧ s.armAnswered t x 0x23#8 tag (.ok [number]) ∧
      (s.goodReads t → contest released t)) ∧
  ∀ (g : Guard) (x : Arm) (c : Claim),
    g.eligible x = some c ↔ (c.phase = .waiting ∧ c.arm = x) ∧
      ∃ before after, g.claims = before ++ c :: after ∧ ∀ d ∈ before, ¬(d.phase = .waiting ∧ d.arm = x)

/-- REVOKE: no claim of the arm is left, and REVOKED is latched for an arm that is INSIDE and stays as it was for one that is
CLEAR or UNKNOWN; with good reads the level follows a REVOKED newly latched. With good reads, no other arm's
claim in the table and no plan to end, REVOKED or WITHDRAWN for each claim in the order of creation, and then the FAULT of
REVOKED when it was not latched before, are all that is posted; that they follow the reply (log entry 7), and that the reply's
last byte is 1 whenever the arm is INSIDE (log entry 30), are the model's. -/
def Obligations.RevokeEndsEveryClaim : Prop :=
  ∀ (s : State) (tag : Byte) (p : List Byte), s.servesHost → p.length = 1 →
    (armOf (u8 p 0) = none → exec (.revoke tag p) s = .next (s.replied 0x0A#8 tag (.refuse .range))) ∧
    (∀ x, armOf (u8 p 0) = some x → s.guard.keysDiffer →
      let inside : Bool := (s.guard.arm x).calculator.zone = .inside
      let u := (s.guard.arm x).unit
      let reply := fun n : Nat => Reply.ok [byte (s.guard.heldCount x), byte n, byte (flagBit inside 0)]
      ∃ t nWithdrawn, exec (.revoke tag p) s = .next t ∧ s.answered t 0x0A#8 tag (reply nWithdrawn) ∧
        nWithdrawn + s.guard.heldCount x ≤ s.guard.claimCount x ∧
        (∀ c ∈ t.guard.claims, c.arm ≠ x) ∧
        (t.guard.arm x).unit.sources.revoked = (u.sources.revoked || inside) ∧ s.guard.followedBy t.guard ∧
        (s.goodReads t →
          nWithdrawn + s.guard.heldCount x = s.guard.claimCount x ∧
          (t.guard.arm x.other).unit.sources.revoked = (s.guard.arm x.other).unit.sources.revoked ∧
          (inside = true → u.sources.revoked = false →
            (t.guard.arm x).unit.level = levelOf (s.guard.cfg.arm x) { u.sources with revoked := true } ∧
            s.guard.timersFollow x u (t.guard.arm x).unit) ∧
          ((∀ c ∈ s.guard.claims, c.arm = x) → s.guard.nothingEnds →
            t.link = (s.replied 0x0A#8 tag (reply nWithdrawn)).link.deliver
              ((s.guard.claims.map fun c => .toArm x
                  (if c.isHeld then .revoked c.number c.origin else .withdrawn c.number c.origin)) ++
                if inside && !u.sources.revoked && (s.guard.cfg.arm x).notify.revoked then
                  [.toHost (.fault x .revoked .raised .hold
                    (levelOf (s.guard.cfg.arm x) { u.sources with revoked := true }))]
                else []))))

/-! ## Fault sources -/

/-- CLEAR_FAULTS: the clearing condition of each latched source (R132), tested against the state as it stands; the named
latched sources whose condition holds are cleared, the others stay, and the level is that of what is left: it stays, with
the escalation timers as they are, or falls, which stops them and starts none; no claim, no notice, no other arm is
touched. -/
def Obligations.ClearFaultsTestsConditions : Prop :=
  (∀ (c : ArmConfig) (a : ArmState),
    (clearable c a .reach = true ↔ a.verdict.reach = false) ∧
    (clearable c a .intrusion = true ↔ a.verdict.intrusion = false) ∧
    (clearable c a .fenceEntry = true ↔ a.verdict.fenceEntry = false) ∧
    (clearable c a .sampleGap = true ↔ a.intake.gap = .running) ∧
    clearable c a .revoked = true ∧
    (clearable c a .escalated = true ↔ a.calculator.lastSpeed ≤ c.vStill)) ∧
  ∀ (s : State) (tag : Byte) (p : List Byte), s.servesHost → p.length = 3 →
    (armOf (u8 p 0) = none → exec (.clearFaults tag p) s = .next (s.replied 0x0B#8 tag (.refuse .range))) ∧
    (∀ x, armOf (u8 p 0) = some x → s.guard.levelAgrees x →
      let a := s.guard.arm x
      let named := fun src : Source => maskNames (u16 p 1) src && src.isLatched && a.unit.sources.has src
      let cleared := fun src : Source => named src && clearable (s.guard.cfg.arm x) a src
      let kept := fun src : Source => named src && !clearable (s.guard.cfg.arm x) a src
      ∃ g : Guard, exec (.clearFaults tag p) s = .next { s.replied 0x0B#8 tag (.ok ([byte (armCode x)] ++
            le16 (sourceMask cleared) ++ le16 (sourceMask kept) ++ [byte (g.arm x).unit.level.code])) with guard := g } ∧
        (∀ src, (g.arm x).unit.sources.has src = (a.unit.sources.has src && !cleared src)) ∧
        ((g.arm x).unit.sources.escalated = none ∨ (g.arm x).unit.sources.escalated = a.unit.sources.escalated) ∧
        (g.arm x).unit.level = levelOf (s.guard.cfg.arm x) (g.arm x).unit.sources ∧
        ((g.arm x).unit.level = a.unit.level →
          (g.arm x).unit.slowTimer = a.unit.slowTimer ∧ (g.arm x).unit.holdTimer = a.unit.holdTimer) ∧
        ((g.arm x).unit.level ≠ a.unit.level → (g.arm x).unit.level.code < a.unit.level.code ∧
          (g.arm x).unit.slowTimer = none ∧ (g.arm x).unit.holdTimer = none) ∧
        { g.arm x with unit := a.unit } = a ∧ g.arm x.other = s.guard.arm x.other ∧
        { g with a := s.guard.a, b := s.guard.b } = s.guard)

/-! ## Reports and counters -/

/-- GET_STATUS: 107 bytes; with good reads it changes nothing but the findings drawn, and reports, at the offsets of its
table, the mode, the arms, the claims, the slots, the sections, the totals of the entries and the lost counts; that the
claim records come in the order of creation is the model's (log entry 13). GET_ROW: one cell code per column of a row of
the grid, by the table of its bits, and with good reads nothing changed but the findings drawn; a row at or above nr is
refused and reads nothing. -/
def Obligations.StatusAndRowReports : Prop :=
  (∀ (s : State) (tag : Byte), s.servesHost →
    let g := s.guard
    let cells := g.cfg.gridCells
    let entries := cells.map g.entryOf
    let count := fun p : Entry → Bool => (entries.filter p).length
    ∃ t body, exec (.getStatus tag []) s = .next t ∧ s.answered t 0x0C#8 tag (.ok body) ∧ body.length = 106 ∧
      g.followedBy t.guard ∧
      (g.goodFor (g.draws cells) →
        t.guard = g.drawn (g.draws cells) ∧ t.link = (s.replied 0x0C#8 tag (.ok body)).link ∧
        let q := 0#8 :: body
        u8 q 1 = g.mode.code ∧
        (∀ x, let o := 2 + 5 * armCode x
          u8 q o = (g.arm x).calculator.zone.code ∧ u8 q (o + 1) = (g.arm x).unit.level.code ∧
          (∀ src : Source, (u16 q (o + 2)).testBit src.code = (g.arm x).unit.sources.has src) ∧
          u8 q (o + 4) = (match (g.arm x).unit.sources.escalated with | some e => e.level.code | none => 0)) ∧
        u8 q 12 = g.claims.length % 256 ∧
        (∀ n < 4, let o := 13 + 5 * n
          match g.claims[n]? with
          | none => ∀ j < 5, u8 q (o + j) = 0
          | some c => u8 q o = armCode c.arm ∧ u8 q (o + 1) = c.number.toNat ∧
              (u8 q (o + 2)).testBit 0 = c.isHeld ∧ (u8 q (o + 2)).testBit 1 = !c.isPlan ∧
              (u8 q (o + 2)).testBit 2 = (match c.origin with | .plan i _ => decide (i = .slot1) | .supervisor => false) ∧
              (u8 q (o + 2)).testBit 3 = decide (c.reserving ≠ .no) ∧
              u8 q (o + 3) = (match c.origin with | .plan _ i => i % 256 | .supervisor => 0) ∧
              u8 q (o + 4) = c.priority % 256) ∧
        (∀ x i, let o := 33 + 24 * armCode x + 12 * SlotIx.code i
          u8 q o = (match (g.arm x).slot i with | .empty => 0 | .loaded _ => 1 | .active _ => 2 | .finishing _ => 3) ∧
          match ((g.arm x).slot i).plan? with
          | none => ∀ j < 11, u8 q (o + 1 + j) = 0
          | some p => u16 q (o + 1) = p.planId % 65536 ∧ u8 q (o + 3) = p.cursor % 256 ∧
              u16 q (o + 4) = p.passesCompleted % 65536 ∧ u16 q (o + 6) = p.picked % 65536 ∧
              u16 q (o + 8) = p.skipped % 65536 ∧ u16 q (o + 10) = p.missed % 65536) ∧
        (∀ n < 4, u8 q (81 + 2 * n) = (if g.cfg.nc ≤ 8 * n then 2 else if g.isRetired n then 1 else 0) ∧
          u8 q (82 + 2 * n) = (g.sections.get n).errors % 256) ∧
        u16 q 89 = count Entry.isFree % 65536 ∧
        u16 q 91 = (count fun e => e.owner = some .A && !e.vacating) % 65536 ∧
        u16 q 93 = (count fun e => e.owner = some .B && !e.vacating) % 65536 ∧
        u16 q 95 = (count fun e => e.owner = some .A && e.vacating) % 65536 ∧
        u16 q 97 = (count fun e => e.owner = some .B && e.vacating) % 65536 ∧
        u16 q 99 = count Entry.isFenced % 65536 ∧
        u16 q 101 = s.link.sup.lost % 65536 ∧ u16 q 103 = s.link.a.lost % 65536 ∧ u16 q 105 = s.link.b.lost % 65536)) ∧
  (∀ (s : State) (tag r : Byte), s.servesHost →
    let cells := (List.range s.guard.cfg.nc).map fun c => (⟨c, r.toNat⟩ : Cell)
    (s.guard.cfg.nr ≤ r.toNat → exec (.getRow tag [r]) s = .next (s.replied 0x0D#8 tag (.refuse .range))) ∧
    (r.toNat < s.guard.cfg.nr → ∃ t codes, exec (.getRow tag [r]) s = .next t ∧
      s.answered t 0x0D#8 tag (.ok (r :: codes)) ∧ codes.length = s.guard.cfg.nc ∧ s.guard.followedBy t.guard ∧
      (s.guard.goodFor (s.guard.draws cells) →
        codes = (cells.map fun c => byte (s.guard.entryOf c).code) ∧ t.guard = s.guard.drawn (s.guard.draws cells) ∧
        t.link = (s.replied 0x0D#8 tag (.ok (r :: codes))).link))) ∧
  ∀ e : Entry,
    let n := e.code
    let fenced := e.hostFence = true ∨ e.faultFence ≠ .none
    n < 256 ∧
    (e.owner = none → ¬fenced → n % 4 = 0) ∧ (e.owner ≠ none → e.vacating = false → n % 4 = 1) ∧
    (e.owner ≠ none → e.vacating = true → n % 4 = 2) ∧ (e.owner = none → fenced → n % 4 = 3) ∧
    (n.testBit 2 = true ↔ e.owner = some .B) ∧ n.testBit 3 = e.fencePending ∧
    n / 16 % 4 = (match e.reservedFor with | none => 0 | some .A => 1 | some .B => 2) ∧
    n.testBit 6 = e.hostFence ∧ (n.testBit 7 = true ↔ e.faultFence ≠ .none)

/-- SET_COUNTERS and GET_COUNTERS: a selection zeroes its counter and 255 leaves it; a byte of 16..254 refuses the whole;
the report has 167 bytes and changes nothing. That a bad arm is answered RANGE alone when a counter byte is bad too is the
model's choice (log entry 35). -/
def Obligations.CounterRequests : Prop :=
  ∀ (s : State) (tag : Byte) (p : List Byte), s.servesHost →
    (p.length = 5 → armOf (u8 p 0) = none → exec (.setCounters tag p) s = .next (s.replied 0x0E#8 tag (.refuse .range))) ∧
    (∀ x, p.length = 5 → armOf (u8 p 0) = some x →
      (∀ i, (sectionNumbers.find? fun i => badSelection (u8 p (i + 1))) = some i →
        exec (.setCounters tag p) s = .next (s.replied 0x0E#8 tag (.refuseWith .range i))) ∧
      ((∀ i < 4, badSelection (u8 p (i + 1)) = false) →
        ∃ q : Four Counter,
          exec (.setCounters tag p) s = .next { s.replied 0x0E#8 tag (.ok (q.toList.map fun k => byte k.selection.code)) with
            guard := s.guard.onArm x fun a => { a with counters := { a.counters with selectable := q } } } ∧
          ∀ i < 4, (u8 p (i + 1) = 255 → q.get i = (s.guard.arm x).counters.selectable.get i) ∧
            (∀ e, countEventOf (u8 p (i + 1)) = some e → q.get i = ⟨e, 0⟩))) ∧
    (∃ body, exec (.getCounters tag []) s = .next (s.replied 0x0F#8 tag (.ok body)) ∧ body.length = 166 ∧
      body = s.guard.a.counters.bytes ++ s.guard.b.counters.bytes ++ s.link.sup.port.counterBytes ++
        s.link.a.port.counterBytes ++ s.link.b.port.counterBytes ++ le32 s.guard.scrubPasses ++
        (s.guard.sections.toList.flatMap SectionState.counterBytes) ++ s.link.lostBytes)

/-! ## Samples -/

/-- SAMPLE of the right length outside INIT is accepted: the intake records it, the calculator works it out, the monitor's
verdict latches its kinds, and the other arm is left alone; with good reads the level is that of the sources, and ECHO
carries it and the number of held claims as the event leaves them. With no claim waiting, or none but the arm's PLAN claims
that a rise to HOLD withdraws, and no plan to end, their withdrawal and the FAULT of each source newly asserted or raised
and notified, in the order of the changes, are all that is posted. That the withdrawals come older first (log entry 39), and
that a grant which no cell becoming FREE called for counts in ECHO's number (log entry 38), are the model's choices; that
they follow ECHO on the arm's port is its reading (log entry 7). A change of level stops and starts the escalation timers. -/
def Obligations.SampleIsAccepted : Prop :=
  ∀ (s : State) (x : Arm) (tag : Byte) (p : List Byte), s.servesArm x → sampleLengthOk p = true →
    let new := parseSample p
    let a := s.guard.arm x
    let c := s.guard.cfg.arm x
    let k := a.calculator.sample s.guard.cfg x new
    ∃ t level zone verdict held, exec (.sample x tag p) s = .next t ∧
      s.armAnswered t x 0x20#8 tag ⟨.ok, [new.sequence, level, zone, verdict, held]⟩ ∧
      (t.guard.arm x).intake =
        ⟨some new, some s.guard.now, some new.sequence, .running, some (s.guard.now + (s.guard.cfg.arm x).tGap)⟩ ∧
      (t.guard.arm x).calculator = k ∧ zone = byte k.zone.code ∧ verdict = byte (t.guard.arm x).verdict.code ∧
      (k.zone ≠ .inside → (t.guard.arm x).verdict = ⟨false, false, false⟩) ∧
      (s.guard.goodFor (s.guard.draws k.cells) →
        (t.guard.arm x).verdict = verdictOf x (k.cells.map s.guard.entryOf)) ∧
      (t.guard.arm x).unit.sources = { a.unit.sources with
        sampleEarly := match a.intake.lastTime with
          | some last => s.guard.now - last < c.tMin
          | none => false
        disagree := match new.p2 with
          | some p2 => c.dTol < (new.p1.x - p2.x).natAbs || c.dTol < (new.p1.y - p2.y).natAbs ||
              c.dTol < (new.p1.z - p2.z).natAbs
          | none => c.dualRequired
        noPosition := false
        reach := a.unit.sources.reach || (t.guard.arm x).verdict.reach
        intrusion := a.unit.sources.intrusion || (t.guard.arm x).verdict.intrusion
        fenceEntry := a.unit.sources.fenceEntry || (t.guard.arm x).verdict.fenceEntry
        revoked := (t.guard.arm x).unit.sources.revoked } ∧
      (s.guard.onArm x fun a => { a with
        intake := (t.guard.arm x).intake
        calculator := (t.guard.arm x).calculator
        verdict := (t.guard.arm x).verdict
        unit := { a.unit with sources := (t.guard.arm x).unit.sources } }).followedBy t.guard ∧
      (s.goodReads t →
        (t.guard.arm x).unit.sources.revoked = a.unit.sources.revoked ∧
        (t.guard.arm x).unit.level = levelOf (s.guard.cfg.arm x) (t.guard.arm x).unit.sources ∧
        s.guard.timersFollow x a.unit (t.guard.arm x).unit ∧
        level = byte (t.guard.arm x).unit.level.code ∧ held = byte (t.guard.heldCount x) ∧
        (let u := (t.guard.arm x).unit
         let faults : List Posted := ([(Source.sampleEarly, FaultChange.asserted), (.disagree, .asserted), (.reach, .raised),
           (.intrusion, .raised), (.fenceEntry, .raised)].filter fun p =>
             u.sources.has p.1 && !a.unit.sources.has p.1 && c.notify.of p.1).map fun p =>
               .toHost (.fault x p.1 p.2 (sourceAction c u.sources p.1) u.level)
         s.guard.keysDiffer → s.guard.nothingEnds →
         (∀ d ∈ s.guard.claims, d.phase = .held ∨
           (d.arm = x ∧ d.isPlan = true ∧ a.unit.level.code < 2 ∧ 2 ≤ u.level.code)) →
         t.link = (s.armReplied x 0x20#8 tag ⟨.ok, [new.sequence, level, zone, verdict, held]⟩).link.deliver
           (withdrawals (s.guard.claims.filter Claim.isWaiting) ++ faults)))

/-- What an accepted SAMPLE counts, whatever its reads find; and with good reads what it does to the arm's claims and cells
when the arm is INSIDE: the entered flag of every held claim that shares a cell with the new footprint is set, and the
vacating cells that the footprint does not cover are let go. -/
def Obligations.SampleSetsFlagsAndCounts : Prop :=
  ∀ (s : State) (x : Arm) (tag : Byte) (p : List Byte), s.servesArm x → sampleLengthOk p = true →
    let new := parseSample p
    let a := s.guard.arm x
    let c := s.guard.cfg.arm x
    let k := a.calculator.sample s.guard.cfg x new
    let early := ∃ last, a.intake.lastTime = some last ∧ s.guard.now - last < c.tMin
    let lost := match a.intake.lastSequence with | some n => (new.sequence - n).toNat - 1 | none => 0
    let outside := fun v : Int => if v < -10000 ∨ 10000 < v then 1 else 0
    ∃ t, exec (.sample x tag p) s = .next t ∧
      (∀ n < 4,
        let was := a.counters.selectable.get n
        let is := (t.guard.arm x).counters.selectable.get n
        is.selection = was.selection ∧
        (was.selection = .samplesAccepted → is.value = sat32 (was.value + 1)) ∧
        (was.selection = .samplesEarly → early → is.value = sat32 (was.value + 1)) ∧
        (was.selection = .samplesEarly → ¬early → is.value = was.value) ∧
        (was.selection = .samplesLost → is.value = sat32 (was.value + lost)) ∧
        (was.selection = .velocityClamped →
          is.value = sat32 (was.value + (outside new.velocity.x + outside new.velocity.y + outside new.velocity.z)))) ∧
      (s.goodReads t → s.guard.keysDiffer → ∀ r, k.footprint = some r →
        (∀ d ∈ s.guard.claims, d.phase = .held → ∃ e ∈ t.guard.claims, d.keeps e ∧
          (e.entered = true ↔ d.entered = true ∨ (d.arm = x ∧ ∃ cell ∈ d.effective, r.covers cell = true))) ∧
        (∀ cell ∈ (t.guard.arm x).vacate, cell ∈ a.vacate ∧ r.covers cell = true) ∧
        ((∀ d ∈ s.guard.claims, d.phase = .held) → (t.guard.arm x).vacate = a.vacate.filter r.covers))

/-- A sample whose zone pair is INSIDE to CLEAR completes every entered held claim of its arm and lets every vacating cell
go; with good reads each completed entry is picked, and a held claim that is not entered stays HELD. -/
def Obligations.ClearSampleCompletesClaims : Prop :=
  ∀ (s : State) (x : Arm) (tag : Byte) (p : List Byte), s.servesArm x → sampleLengthOk p = true →
    (s.guard.arm x).calculator.zone = .inside →
    ((s.guard.arm x).calculator.sample s.guard.cfg x (parseSample p)).zone = .clear →
    let done := s.guard.claims.filter fun c => c.arm = x && c.isHeld && c.entered
    ∃ t, exec (.sample x tag p) s = .next t ∧
      (∀ c ∈ done, ∀ d ∈ t.guard.claims, d.key ≠ c.key) ∧ (t.guard.arm x).vacate = [] ∧
      (s.goodReads t → s.guard.keysDiffer →
        (∀ c ∈ s.guard.claims, c.arm = x → c.phase = .held → c.entered = false → ∃ d ∈ t.guard.claims, c.keeps d) ∧
        (∀ i q r, ((s.guard.arm x).slot i).plan? = some q → ((t.guard.arm x).slot i).plan? = some r → q.picked ≤ 65535 →
          r.picked = min 65535 (q.picked + (done.filter fun c => c.fromSlot x i).length) ∧ r.skipped = q.skipped) ∧
        (∀ n < 4,
          let was := (s.guard.arm x).counters.selectable.get n
          was.selection = .picks → was.value ≤ 4294967295 →
            ((t.guard.arm x).counters.selectable.get n).value =
              min 4294967295 (was.value + (done.filter Claim.isPlan).length)))

/-- SAMPLE of a wrong length, or in INIT, is not accepted: it is answered, in INIT also counted, and nothing else
changes. -/
def Obligations.SampleIsNotAccepted : Prop :=
  ∀ (s : State) (x : Arm) (tag : Byte) (p : List Byte), s.guard.powered = true → (s.link.arm x).replies.length < 4 →
    (s.guard.mode ≠ .init → sampleLengthOk p = false →
      exec (.sample x tag p) s = .next (s.armReplied x 0x20#8 tag ⟨.badLength, [0#8,
        byte (s.guard.arm x).unit.level.code, byte (s.guard.arm x).calculator.zone.code,
        byte (s.guard.arm x).verdict.code, byte (s.guard.heldCount x)]⟩)) ∧
    (s.guard.mode = .init →
      exec (.sample x tag p) s = .next { s.armReplied x 0x20#8 tag ⟨.notReady, [p.getD 0 0#8, 3#8, 0#8, 0#8, 0#8]⟩ with
        guard := s.guard.onArm x fun a => { a with counters := { a.counters with
          discarded := sat32 (a.counters.discarded + 1) } } })

/-! ## The arms' requests -/

/-- REQUEST with no waiting claim in the table and good reads: the entry at the cursor is issued, the cursor and passes
completed moving on, the slot going FINISHING where the pass was its last or the count of issues is full; its claim, under
the next claim number or the one after it when a claim of the arm has that, is HELD at once when every cell of its
effective set is available; else it waits, at priority 7 with every cell of it reserved and below 7 with none. A grant
posts GRANTED alone and adds to the counters of GRANTS and CELLS_EXCLUDED; a claim that waits posts and counts nothing. -/
def Obligations.RequestMakesClaim : Prop :=
  ∀ (s : State) (x : Arm) (tag : Byte) (i : SlotIx) (q : Plan) (e : PlanEntry), s.servesArm x → s.guard.mode = .guarding →
    (s.guard.arm x).unit.level.atLeastHold = false → (s.guard.arm x).activePlan = some (i, q) →
    s.guard.claimCount x < 2 → (∀ c ∈ s.guard.claims, c.phase = .held ∧ c.reserving = .no) →
    q.entries[q.cursor]? = some e →
    let cells := e.shape.cells s.guard.cfg
    let kept := cells.filter fun c => !(s.guard.entryOf c).isExcluded
    let excluded := cells.length - kept.length
    let claim := s.guard.newClaim x (.plan i q.cursor) e.shape kept excluded e.priority
    let free := (s.guard.arm x).nextNumber
    let other := (s.guard.arm x).slot i.other
    let issued := min 65535 (q.issued + 1)
    let last : Bool := q.entries.length ≤ q.cursor + 1
    let passes := if last then min 65535 (q.passesCompleted + 1) else q.passesCompleted
    let ends : Bool := issued = 65535 || (last && if q.passes = 0 then other.isLoaded else q.passes ≤ passes)
    let r := { q with
      issued := issued
      passesCompleted := passes
      cursor := if last || issued = 65535 then 0 else q.cursor + 1 }
    kept ≠ [] → s.guard.goodFor (s.guard.draws cells + s.guard.draws kept) →
      (claim.number = if ∃ c ∈ s.guard.claims, c.arm = x ∧ c.number = free then free + 1 else free) ∧
      ∃ t, exec (.request x tag []) s = .next t ∧
        let granted : Bool := kept.all fun c => (s.guard.entryOf c).availableTo x
        t.link = (s.armReplied x 0x21#8 tag (.ok [claim.number, byte q.cursor])).link.deliver
          (if granted then [.toArm x (.granted claim.number (.plan i q.cursor) q.planId e.pick kept.length excluded)] else []) ∧
        (∀ n < 4, let k := (s.guard.arm x).counters.selectable.get n
          (t.guard.arm x).counters.selectable.get n = if granted then k.atGrant excluded else k) ∧
        (granted = true → t.guard.claims = s.guard.claims ++ [claim.granted] ∧ t.guard.lastGranted = x) ∧
        (granted = false → e.priority < 7 → t.guard.claims = s.guard.claims ++ [claim]) ∧
        (granted = false → e.priority = 7 →
          ∃ c, t.guard.claims = s.guard.claims ++ [c] ∧ claim.keeps c ∧ c.phase = .waiting ∧ c.reserving = .senior ∧
            ∀ d, d ∈ c.reserved ↔ d ∈ kept) ∧
        (t.guard.arm x).nextNumber = claim.number + 1 ∧
        (ends = false → (t.guard.arm x).slot i = .active r ∧ (t.guard.arm x).slot i.other = other) ∧
        (ends = true → (t.guard.arm x).slot i = .finishing { r with endReason := some .complete } ∧
          (t.guard.arm x).slot i.other = match other with | .loaded w => .active w | w => w) ∧
        (s.guard.arm x.other).keeps (t.guard.arm x.other) ∧
        { s.guard with a := t.guard.a, b := t.guard.b, claims := t.guard.claims }.followedBy t.guard

/-- REQUEST refused: the conditions in their order, and EMPTY, which consumes the entry as missed: it is issued as any entry
is, so that the slot stays ACTIVE in the middle of a pass, at the end of a pass that is not its plan's last and at that of an
open-ended plan with nothing LOADED behind it, and at the end of the last pass, at that of an open-ended plan with another
LOADED behind it, and at the issue that brings the count to 65535, goes FINISHING, a LOADED slot behind it becoming ACTIVE,
and without a claim in the table becomes EMPTY with its PLAN_END. That PLAN_END follows the reply on the arm's port is the
model's reading (log entry 7). -/
def Obligations.RequestIsRefused : Prop :=
  ∀ (s : State) (x : Arm) (tag : Byte), s.servesArm x →
    let result := exec (.request x tag []) s
    let a := s.guard.arm x
    (s.guard.mode ≠ .guarding → result = .next (s.armReplied x 0x21#8 tag (.refuse .wrongMode))) ∧
    (s.guard.mode = .guarding → a.unit.level.atLeastHold = true →
      result = .next (s.armReplied x 0x21#8 tag (.refuse .stopped))) ∧
    (s.guard.mode = .guarding → a.unit.level.atLeastHold = false →
      (a.activePlan = none → result = .next (s.armReplied x 0x21#8 tag (.refuse .noPlan))) ∧
      (∀ i q, a.activePlan = some (i, q) →
        (2 ≤ s.guard.claimCount x → result = .next (s.armReplied x 0x21#8 tag (.refuse .noRoom))) ∧
        (∀ e, s.guard.claimCount x < 2 → q.entries[q.cursor]? = some e →
          let cells := e.shape.cells s.guard.cfg
          (∀ c ∈ cells, (s.guard.entryOf c).isExcluded = true) → s.guard.goodFor (s.guard.draws cells) →
          let replied := s.armReplied x 0x21#8 tag (.refuseWith .empty q.cursor)
          let counts := fun f : ArmState → ArmState =>
            (((s.guard.drawn (s.guard.draws cells)).onArm x f).onArm x fun a => { a with counters := { a.counters with
              selectable := a.counters.selectable.map fun k =>
                if k.selection = .misses then { k with value := sat32 (k.value + 1) } else k } })
          let issued := min 65535 (q.issued + 1)
          let last : Bool := q.entries.length ≤ q.cursor + 1
          let passes := if last then min 65535 (q.passesCompleted + 1) else q.passesCompleted
          let moved := fun cursor => { q with
            issued := issued, passesCompleted := passes, cursor := cursor, missed := min 65535 (q.missed + 1) }
          let stays := fun cursor => result = .next { replied with
            guard := counts fun a => a.setSlot i (.active (moved cursor)) }
          let finished := { moved 0 with endReason := some .complete }
          let ends := result = .next { replied with
            guard := counts fun a =>
              (a.setSlot i (if s.guard.slotHasClaim x i then .finishing finished else .empty)).setSlot i.other
                (match a.slot i.other with | .loaded w => .active w | w => w)
            link := replied.link.deliver (if s.guard.slotHasClaim x i then [] else
              planEnds ⟨x, i, q.planId, q.picked, q.skipped, min 65535 (q.missed + 1), some .complete⟩) }
          (65535 ≤ q.issued + 1 → ends) ∧
          (q.issued + 1 < 65535 →
            (q.cursor + 1 < q.entries.length → stays (q.cursor + 1)) ∧
            (q.entries.length ≤ q.cursor + 1 →
              (q.passes ≠ 0 → passes < q.passes → stays 0) ∧ (q.passes ≠ 0 → q.passes ≤ passes → ends) ∧
              (q.passes = 0 → (a.slot i.other).isLoaded = true → ends) ∧
              (q.passes = 0 → (a.slot i.other).isLoaded = false → stays 0))))))

/-- SKIP: the entry at the cursor is issued and skipped, and the cursor and passes completed move on. The slot stays ACTIVE
in the middle of a pass, at the end of a pass that is not its plan's last, and at that of an open-ended plan with nothing
LOADED behind it; at the end of the last pass, at that of an open-ended plan with another LOADED behind it, and at the
issue that brings the count to 65535, it goes FINISHING, a LOADED slot behind it becomes ACTIVE, and without a claim in the
table it becomes EMPTY with its PLAN_END. Refused outside GUARD and without an ACTIVE slot. -/
def Obligations.SkipIssuesEntry : Prop :=
  ∀ (s : State) (x : Arm) (tag : Byte), s.servesArm x →
    let result := exec (.skip x tag []) s
    let a := s.guard.arm x
    (s.guard.mode ≠ .guarding → result = .next (s.armReplied x 0x22#8 tag (.refuse .wrongMode))) ∧
    (s.guard.mode = .guarding →
      (a.activePlan = none → result = .next (s.armReplied x 0x22#8 tag (.refuse .noPlan))) ∧
      (∀ i q, a.activePlan = some (i, q) →
        let replied := s.armReplied x 0x22#8 tag (.ok (le16 q.planId ++ [byte q.cursor]))
        let counts := fun g : Guard => g.onArm x fun a => { a with counters := { a.counters with
          selectable := a.counters.selectable.map fun k =>
            if k.selection = .skips then { k with value := sat32 (k.value + 1) } else k } }
        let issued := min 65535 (q.issued + 1)
        let last : Bool := q.entries.length ≤ q.cursor + 1
        let passes := if last then min 65535 (q.passesCompleted + 1) else q.passesCompleted
        let moved := fun cursor => { q with
          issued := issued, passesCompleted := passes, cursor := cursor, skipped := min 65535 (q.skipped + 1) }
        let stays := fun cursor => result = .next { replied with
          guard := counts (s.guard.onArm x fun a => a.setSlot i (.active (moved cursor))) }
        let finished := { moved 0 with endReason := some .complete }
        let ends := result = .next { replied with
          guard := counts (s.guard.onArm x fun a =>
            (a.setSlot i (if s.guard.slotHasClaim x i then .finishing finished else .empty)).setSlot i.other
              (match a.slot i.other with | .loaded w => .active w | w => w))
          link := replied.link.deliver (if s.guard.slotHasClaim x i then [] else
            planEnds ⟨x, i, q.planId, q.picked, min 65535 (q.skipped + 1), q.missed, some .complete⟩) }
        (65535 ≤ q.issued + 1 → ends) ∧
        (q.issued + 1 < 65535 →
          (q.cursor + 1 < q.entries.length → stays (q.cursor + 1)) ∧
          (q.entries.length ≤ q.cursor + 1 →
            (q.passes ≠ 0 → passes < q.passes → stays 0) ∧ (q.passes ≠ 0 → q.passes ≤ passes → ends) ∧
            (q.passes = 0 → (a.slot i.other).isLoaded = true → ends) ∧
            (q.passes = 0 → (a.slot i.other).isLoaded = false → stays 0)))))

/-- RELEASE of a held claim ends it; of another claim, or with another outcome, it is refused and changes nothing. With good
reads a PLAN claim's outcome is added to its slot's tally and to the counters that count it; a FINISHING slot with no other
claim becomes EMPTY; and with no claim waiting, the cells that no other held claim of the arm keeps are let go when the arm
is CLEAR and else join its vacate set, and PLAN_END and the end of DRAINING are all that is posted. -/
def Obligations.ReleaseEndsHeldClaim : Prop :=
  ∀ (s : State) (x : Arm) (tag number outcome : Byte), s.servesArm x →
    let result := exec (.release x tag [number, outcome]) s
    (1 < outcome.toNat → result = .next (s.armReplied x 0x23#8 tag (.refuse .range))) ∧
    (outcome.toNat ≤ 1 →
      ((∀ c, s.guard.claim? ⟨x, number⟩ = some c → c.phase = .waiting) →
        result = .next (s.armReplied x 0x23#8 tag (.refuse .notFound))) ∧
      (∀ c, s.guard.claim? ⟨x, number⟩ = some c → c.phase = .held →
        let others := s.guard.claims.filter fun d => d.key ≠ c.key
        let own := c.effective.filter fun d =>
          !(others.any fun k => k.isHeld && k.arm = x && d ∈ k.effective)
        let tallied : Plan → Plan := fun q =>
          if outcome = 0#8 then { q with picked := sat16 (q.picked + 1) } else { q with missed := sat16 (q.missed + 1) }
        ∃ t, result = .next t ∧ s.armAnswered t x 0x23#8 tag (.ok [number]) ∧
          (∀ d ∈ t.guard.claims, d.key ≠ ⟨x, number⟩) ∧ s.guard.followedBy t.guard ∧
          (s.goodReads t → s.guard.keysDiffer →
            (∀ d ∈ others, ∃ e ∈ t.guard.claims, d.keeps e) ∧
            (∀ i n q, c.origin = .plan i n →
              ((s.guard.arm x).slot i = .active q → (t.guard.arm x).slot i = .active (tallied q)) ∧
              ((s.guard.arm x).slot i = .finishing q →
                ((∃ d ∈ others, d.fromSlot x i = true) → (t.guard.arm x).slot i = .finishing (tallied q)) ∧
                ((∀ d ∈ others, d.fromSlot x i = false) → (t.guard.arm x).slot i = .empty))) ∧
            (∀ n < 4,
              let was := (s.guard.arm x).counters.selectable.get n
              was.selection = (if outcome = 0#8 then .picks else .misses) →
                ((t.guard.arm x).counters.selectable.get n).value = if c.isPlan then sat32 (was.value + 1) else was.value) ∧
            ((∀ d ∈ others, d.phase = .held) →
              let ends : List Posted := match c.origin with
                | .supervisor => []
                | .plan i _ => match (s.guard.arm x).slot i with
                  | .finishing q =>
                    if others.any fun d => d.fromSlot x i then []
                    else planEnds ⟨x, i, q.planId, (tallied q).picked, q.skipped, (tallied q).missed, q.endReason⟩
                  | _ => []
              let drained : Bool := s.guard.mode = .draining && c.isPlan && !others.any Claim.isPlan
              t.guard.claims = others ∧
              (∀ d, d ∈ (t.guard.arm x).vacate ↔
                d ∈ (s.guard.arm x).vacate ∨ ((s.guard.arm x).calculator.zone ≠ .clear ∧ d ∈ own)) ∧
              t.guard.arm x.other = s.guard.arm x.other ∧
              t.guard.mode = (if drained then .setup else s.guard.mode) ∧
              t.link = (s.armReplied x 0x23#8 tag (.ok [number])).link.deliver
                (ends ++ if drained then [.toHost (.mode .setup .drainEnd)] else [])))))

/-! ## Timers and time -/

/-- GAP_TIMER_EXPIRY: SAMPLE_GAP is latched and the gap state is LAPSED, with all that the last sample determined kept, and
GAPS is counted; an expiry that is not due does nothing (log entry 6). With no claim waiting but the arm's PLAN claims and
no plan to end, their withdrawal at a rise to HOLD, older first by the model's choice (log entry 39), and the FAULT are all
that is posted, and a change of level stops and starts the escalation timers. -/
def Obligations.GapExpiryLatches : Prop :=
  ∀ (s : State) (x : Arm), s.guard.powered = true →
    (s.guard.due (s.guard.arm x).intake.gapTimer = false → exec (.gapTimerExpiry x) s = .next s) ∧
    (s.guard.due (s.guard.arm x).intake.gapTimer = true →
      let u := (s.guard.arm x).unit
      let c := s.guard.cfg.arm x
      ∃ t, exec (.gapTimerExpiry x) s = .next t ∧ s.noticed t ∧
        (s.guard.onArm x fun a => { a with
          intake := { a.intake with gap := .lapsed, gapTimer := none }
          unit := { a.unit with sources := { a.unit.sources with sampleGap := true } } }).followedBy t.guard ∧
        (∀ n < 4,
          let was := (s.guard.arm x).counters.selectable.get n
          was.selection = .gaps → ((t.guard.arm x).counters.selectable.get n).value = sat32 (was.value + 1)) ∧
        (s.guard.mode ≠ .init → s.guard.keysDiffer → s.guard.nothingEnds →
          (∀ k ∈ s.guard.claims, k.phase = .waiting → k.arm = x ∧ k.isPlan = true) →
          (t.guard.arm x).unit.level = levelOf c { u.sources with sampleGap := true } ∧
          s.guard.timersFollow x u (t.guard.arm x).unit ∧
          t.link = s.link.deliver (s.guard.sourceNotices x .sampleGap (!u.sources.sampleGap) c.actions.sampleGap
            (levelOf c { u.sources with sampleGap := true }))))

/-- AGING_TIMER_EXPIRY raises the claim's effective priority by one, and its aging timer starts again while that is below 7
and the claim waits; with good reads the claim stays in the table; TIMEOUT_TIMER_EXPIRY bounces it, BOUNCED being the first
notice of the event, and with good reads its entry counts as missed. Either does nothing when it is not due or the claim is
not waiting (log entry 6). -/
def Obligations.WaitingTimersExpire : Prop :=
  ∀ (s : State) (x : Arm) (number : Byte), s.guard.powered = true →
    let now := fun (k : Claim) (timer : Timer) => k.phase = .waiting ∧ s.guard.due timer = true
    ((∀ k, s.guard.claim? ⟨x, number⟩ = some k → ¬now k k.aging) → exec (.agingTimerExpiry x number) s = .next s) ∧
    ((∀ k, s.guard.claim? ⟨x, number⟩ = some k → ¬now k k.timeout) → exec (.timeoutTimerExpiry x number) s = .next s) ∧
    (∀ k, s.guard.claim? ⟨x, number⟩ = some k →
      (now k k.aging → s.guard.keysDiffer →
        ∃ t, exec (.agingTimerExpiry x number) s = .next t ∧ s.noticed t ∧
          (∀ d ∈ t.guard.claims, d.key = k.key → d.priority = min 7 (k.priority + 1) ∧
            d.aging = if d.phase = .waiting ∧ k.priority + 1 < 7 then some (s.guard.now + s.guard.cfg.tAge) else none) ∧
          (s.goodReads t → ∃ d ∈ t.guard.claims, { k with priority := min 7 (k.priority + 1) }.keeps d) ∧
          (s.guard.onClaim k.key fun d => { d with priority := min 7 (k.priority + 1) }).followedBy t.guard) ∧
      (now k k.timeout →
        ∃ t, exec (.timeoutTimerExpiry x number) s = .next t ∧
          (∃ out, t.link = s.link.deliver (.toArm x (.bounced number k.origin .timeout) :: out)) ∧
          (∀ d ∈ t.guard.claims, d.key ≠ k.key) ∧ s.guard.followedBy t.guard ∧
          (s.goodReads t → ∀ i n q, k.origin = .plan i n → (s.guard.arm x).slot i = .active q →
            (t.guard.arm x).slot i = .active { q with missed := sat16 (q.missed + 1) }) ∧
          (∀ i n q, s.guard.claims = [k] → k.origin = .plan i n → (s.guard.arm x).slot i = .active q →
            s.guard.mode = .guarding → t.link = s.link.deliver [.toArm x (.bounced number k.origin .timeout)])))

/-- SLOW_TIMER_EXPIRY and HOLD_TIMER_EXPIRY: an arm that is too fast is escalated; an arm within its limit is not; an expiry
that is not due does nothing (log entry 6). With no claim waiting but the arm's PLAN claims and no plan to end, their
withdrawal at a rise to HOLD, older first by the model's choice (log entry 39), and the FAULT are all that is posted;
the timer that expired has stopped, and a slow expiry that raises the level to HOLD has started the hold timer, one that
raises it to HALT none. -/
def Obligations.EscalationTimersExpire : Prop :=
  ∀ (s : State) (x : Arm), s.guard.powered = true →
    let a := s.guard.arm x
    let c := s.guard.cfg.arm x
    let escalates := fun (command : Instr) (e : Escalation) (was : ActionUnit) =>
      let new := levelOf c { a.unit.sources with escalated := some e }
      ∃ t, exec command s = .next t ∧ s.noticed t ∧
        (s.guard.onUnit x fun u => { u with sources := { u.sources with escalated := some e } }).followedBy t.guard ∧
        (s.guard.mode ≠ .init → s.guard.keysDiffer → s.guard.nothingEnds →
          (∀ k ∈ s.guard.claims, k.phase = .waiting → k.arm = x ∧ k.isPlan = true) →
          (t.guard.arm x).unit.level = new ∧ s.guard.timersFollow x was (t.guard.arm x).unit ∧
          t.link = s.link.deliver (s.guard.sourceNotices x .escalated true e.level new))
    (s.guard.due a.unit.slowTimer = false → exec (.slowTimerExpiry x) s = .next s) ∧
    (s.guard.due a.unit.slowTimer = true → c.vSlow < a.calculator.lastSpeed → a.unit.sources.escalated = none →
      escalates (.slowTimerExpiry x) .hold { a.unit with slowTimer := none }) ∧
    (s.guard.due a.unit.slowTimer = true → a.calculator.lastSpeed ≤ c.vSlow →
      exec (.slowTimerExpiry x) s = .next { s with guard := s.guard.onUnit x fun u => { u with slowTimer := none } }) ∧
    (s.guard.due a.unit.holdTimer = false → exec (.holdTimerExpiry x) s = .next s) ∧
    (s.guard.due a.unit.holdTimer = true → c.vStill < a.calculator.lastSpeed → a.unit.sources.escalated ≠ some .halt →
      escalates (.holdTimerExpiry x) .halt { a.unit with holdTimer := none }) ∧
    (s.guard.due a.unit.holdTimer = true → a.calculator.lastSpeed ≤ c.vStill →
      exec (.holdTimerExpiry x) s = .next { s with guard := s.guard.onUnit x fun u => { u with holdTimer := none } })

/-- LEAK_TIMER_EXPIRY: every section error counter above 0 falls by one, and the timer starts again; not due, it does
nothing (log entry 6). -/
def Obligations.LeakTimerExpires : Prop :=
  ∀ s : State, s.guard.powered = true →
    (s.guard.due s.guard.leakTimer = false → exec .leakTimerExpiry s = .next s) ∧
    (s.guard.due s.guard.leakTimer = true →
      exec .leakTimerExpiry s = .next { s with guard := { s.guard with
        sections := s.guard.sections.map fun t => { t with errors := if 0 < t.errors then t.errors - 1 else 0 }
        leakTimer := some (s.guard.now + 10 * s.guard.cfg.tLeak) } })

/-- SCRUB_VISIT: the cell at the cursor's position of the list of the grid's cells in active sections, in row-major order,
is due at T + floor(k * P / N); the cursor moves on, and after the last cell a pass is counted and the next starts at T + P.
By what its read finds: a good read moves the cursor on; a corrected one raises the section's counter by 1, a rebuilt one
by 4 with MAP_ERROR; one whose rebuild does not hold raises it by 4 and poisons the cell, with MAP_ERROR
and then POISONED first among the notices: the cell leaves every held claim, every reservation and both vacate sets, and
its entry reads POISONED. -/
def Obligations.ScrubVisitReadsOneCell : Prop :=
  ∀ s : State, s.guard.powered = true →
    let cell := s.guard.scrubCell s.guard.scrub.pos
    let t := s.guard.sections.get cell.sec
    let threshold := s.guard.cfg.retireThreshold
    let visits := s.guard.cfg.gridCells.filter fun c => s.guard.isActive c.sec
    let scrub := s.guard.scrub
    let p := if scrub.begun then scrub.period else 10 * s.guard.cfg.scrubPeriod
    (scrub.pos < visits.length →
      visits[scrub.pos]? = some cell ∧
      (s.guard.visitDue = true ↔
        s.guard.mode ≠ .init ∧ scrub.start + scrub.pos * scrub.period / visits.length ≤ s.guard.now) ∧
      (scrub.pos + 1 < visits.length →
        s.guard.advanceScrub = { s.guard with scrub := ⟨scrub.pos + 1, scrub.start, p, true⟩ }) ∧
      (visits.length ≤ scrub.pos + 1 → s.guard.advanceScrub = { s.guard with
        scrub := ⟨0, scrub.start + p, p, false⟩, scrubPasses := sat32 (s.guard.scrubPasses + 1) })) ∧
    (visits = [] → s.guard.visitDue = false) ∧
    (s.guard.visitDue = false → exec .scrubVisit s = .next s) ∧
    (s.guard.visitDue = true →
      (s.guard.goodFor (s.guard.draws [cell]) →
        exec .scrubVisit s = .next { s with guard := (s.guard.drawn (s.guard.draws [cell])).advanceScrub }) ∧
      (∀ rest, cell ∉ s.guard.poisoned → s.guard.isActive cell.sec = true →
        (s.guard.findings = .corrected :: rest → t.errors + 1 < threshold →
          exec .scrubVisit s = .next { s with guard := (Guard.onSection { s.guard with findings := rest } cell.sec fun t =>
            { t with errors := t.errors + 1, corrected := sat32 (t.corrected + 1) }).advanceScrub }) ∧
        (s.guard.findings = .rebuilt :: rest → t.errors + 4 < threshold →
          exec .scrubVisit s = .next { s with
            guard := ((Guard.reindexCell { s.guard with findings := rest } cell).onSection cell.sec fun t =>
              { t with errors := t.errors + 4, uncorrectable := sat32 (t.uncorrectable + 1) }).advanceScrub
            link := s.link.deliver [.toHost (.mapError cell .scrub true (t.errors + 4))] }) ∧
        (s.guard.findings = .unholding :: rest →
          let notices : List Posted := [.toHost (.mapError cell .scrub false (t.errors + 4)),
            .toHost (.poisoned cell (s.guard.ownerOf cell) .read)]
          ∃ u, exec .scrubVisit s = .next u ∧ cell ∈ u.guard.poisoned ∧ (∃ out, u.link = s.link.deliver (notices ++ out)) ∧
            (t.errors + 4 < threshold → (∀ c ∈ s.guard.claims, c.phase = .held) →
              u.link = s.link.deliver notices ∧ u.guard.findings = rest ∧
              (∀ c, c ∈ u.guard.poisoned ↔ c = cell ∨ c ∈ s.guard.poisoned) ∧
              u.guard.sections.get cell.sec = { t with errors := t.errors + 4, uncorrectable := sat32 (t.uncorrectable + 1), poisonings := sat32 (t.poisonings + 1) } ∧
              u.guard.claims = (s.guard.claims.map fun c => { c with
                effective := c.effective.filter fun d => d ≠ cell
                reserved := c.reserved.filter fun d => d ≠ cell }) ∧
              (∀ x, (u.guard.arm x).vacate = (s.guard.arm x).vacate.filter fun d => d ≠ cell) ∧
              (storeWf s.guard.store = true → (u.guard.entryOf cell).owner = none ∧
                (u.guard.entryOf cell).faultFence = .poisoned)))) ∧
      ∃ u, exec .scrubVisit s = .next u ∧ s.noticed u ∧
        { s.guard with scrubPasses := u.guard.scrubPasses }.followedBy u.guard)

/-- A section whose error counter a scrub visit brings to the threshold, by a corrected read or an uncorrectable one. With
another section active it is retired: its counter is 0, its held claims are revoked, waiting claims with a cell in it are
formed anew or bounced EMPTY, and RETIRED reports it. The only
active section is flushed instead: no claim is left, the section stays active with its counter 0, REVOKED is latched for
every arm that is INSIDE, the cursor moves on as after any visit, and FLUSHED reports it. With good reads, every claim held
at a retirement and no plan to end, REVOKED (at a flush WITHDRAWN for a waiting claim) for each claim that ends, in the order
of creation, then the FAULT of REVOKED of each arm where it was newly latched and is notified, with the level it brings, and
then RETIRED or FLUSHED with their numbers are all that is posted. Which owned cells RETIRED counts, and for which arms a
retirement latches REVOKED, are the model's readings (log entries 15 and 26); that arm A's FAULT comes before arm B's is its
reading too (log entry 7). -/
def Obligations.SectionAtThreshold : Prop :=
  ∀ (s : State) (found : Finding) (rise : Nat) (rest : List Finding), s.guard.powered = true → s.guard.visitDue = true →
    let cell := s.guard.scrubCell s.guard.scrub.pos
    let sec := cell.sec
    let t := s.guard.sections.get sec
    let cells := s.guard.sectionCells sec
    let hit := fun c : Claim => c.effective.any fun d => d.sec = sec
    let before : List Posted := if found = .rebuilt then [.toHost (.mapError cell .scrub true (t.errors + 4))] else []
    let inside := fun x : Arm => decide ((s.guard.arm x).calculator.zone = .inside)
    let hits := s.guard.claims.filter hit
    let ended := fun c : Claim => Posted.toArm c.arm
      (if c.isHeld then .revoked c.number c.origin else .withdrawn c.number c.origin)
    let faults := fun latched : Arm → Bool => ([Arm.A, .B].filter fun x => latched x &&
        !(s.guard.arm x).unit.sources.revoked && (s.guard.cfg.arm x).notify.revoked).map fun x => Posted.toHost
      (.fault x .revoked .raised .hold (levelOf (s.guard.cfg.arm x) { (s.guard.arm x).unit.sources with revoked := true }))
    cell ∉ s.guard.poisoned → s.guard.isActive sec = true → s.guard.findings = found :: rest →
    ((found = .corrected ∧ rise = 1) ∨ ((found = .rebuilt ∨ found = .unholding) ∧ rise = 4)) →
    s.guard.cfg.retireThreshold ≤ t.errors + rise →
    ∃ u, exec .scrubVisit s = .next u ∧ s.noticed u ∧ (u.guard.sections.get sec).errors = 0 ∧
      (s.guard.otherActive sec = true →
        u.guard.isRetired sec = true ∧
        (found ≠ .unholding → (∀ f ∈ rest, f = .good) → u.guard.reads = s.guard.reads →
          (∀ c ∈ s.guard.claims, c.phase = .held) → s.guard.keysDiffer →
          (∀ c ∈ u.guard.claims, hit c = false) ∧
          (∀ c ∈ s.guard.claims, hit c = false → ∃ d ∈ u.guard.claims, c.keeps d) ∧
          (∀ x, (u.guard.arm x).unit.sources.revoked =
            ((s.guard.arm x).unit.sources.revoked || (inside x && hits.any fun c => c.arm = x))) ∧
          u.guard.scrub = ⟨0, s.guard.now, 10 * s.guard.cfg.scrubPeriod, true⟩ ∧
          ((s.guard.claims = [] ∨ s.guard.nothingEnds) → storeWf s.guard.store = true → s.guard.mapAgrees →
            s.guard.cfg.nc ≤ 32 → s.guard.cfg.nr ≤ 24 →
            u.link = s.link.deliver (before ++ hits.map ended ++ faults (fun x => inside x && hits.any fun c => c.arm = x) ++
              [.toHost (.retired sec
                (cells.filter fun c => (s.guard.entryOf c).isFree).length
                (cells.filter fun c => (s.guard.entryOf c).owner.isSome).length hits.length 0)]))) ∧
        (found ≠ .unholding → (∀ f ∈ rest, f = .good) → u.guard.reads = s.guard.reads →
          storeWf s.guard.store = true → s.guard.trayInOrder →
          (∀ c ∈ s.guard.claims, c.phase = .held → hit c = false) → ∀ k ∈ s.guard.claims, k.phase = .waiting →
          let own := k.shape.cells s.guard.cfg
          let kept := own.filter fun d =>
            d.sec ≠ sec ∧ d ∉ s.guard.fences ∧ s.guard.isRetired d.sec = false ∧ d ∉ s.guard.poisoned
          (∃ d ∈ own, d.sec = sec) →
            (kept ≠ [] → ∃ d ∈ u.guard.claims, k.keeps d ∧ d.effective = kept ∧ d.excluded = own.length - kept.length ∧
              ∀ e ∈ d.reserved, e ∈ kept) ∧
            (kept = [] → (∀ d ∈ u.guard.claims, d.key ≠ k.key) ∧
              ((∀ d ∈ s.guard.claims, d.key ≠ k.key → d.phase = .held) → s.guard.nothingEnds →
                u.link = s.link.deliver (before ++ [.toArm k.arm (.bounced k.number k.origin .empty), .toHost (.retired sec
                  (cells.filter fun c => (s.guard.entryOf c).isFree).length
                  (cells.filter fun c => (s.guard.entryOf c).owner.isSome).length 0 1)]))))) ∧
      (s.guard.otherActive sec = false →
        u.guard.claims = [] ∧ (∀ n, u.guard.isRetired n = s.guard.isRetired n) ∧
        u.guard.scrub = s.guard.advanceScrub.scrub ∧
        (∀ x, (u.guard.arm x).unit.sources.revoked = ((s.guard.arm x).unit.sources.revoked || inside x)) ∧
        (found ≠ .unholding → (∀ f ∈ rest, f = .good) → u.guard.reads = s.guard.reads → s.guard.keysDiffer →
          (s.guard.claims = [] ∨ s.guard.nothingEnds) →
          u.link = s.link.deliver (before ++ s.guard.claims.map ended ++ faults inside ++ [.toHost (.flushed sec
            (s.guard.claims.filter Claim.isHeld).length (s.guard.claims.filter Claim.isWaiting).length 0)])))

/-- TIME_BASE_STEP: the time base advances; outside INIT each arm's step of waiting, by the state of its eligible claim's
cells, goes to the accumulator and to the events of its cause, and a step at SLOW or above to TIME_SLOW_OR_ABOVE; nothing
but counters changes, and nothing is drawn from the store's findings (log entry 19). -/
def Obligations.TimeBaseAdvances : Prop :=
  ∀ s : State, s.guard.powered = true →
    ∃ t, exec .timeBaseStep s = .next t ∧ t.link = s.link ∧ t.guard.now = s.guard.now + 1 ∧
      { t.guard with a := s.guard.a, b := s.guard.b, now := s.guard.now } = s.guard ∧
      (s.guard.mode = .init → t.guard = { s.guard with now := s.guard.now + 1 }) ∧
      ∀ x, { t.guard.arm x with counters := (s.guard.arm x).counters } = s.guard.arm x ∧
        (s.guard.mode ≠ .init →
          let was := (s.guard.arm x).counters
          let is := (t.guard.arm x).counters
          let anyCell := fun p : Entry → Prop => ∃ k, (s.guard.claims.find? fun c => c.phase = .waiting && c.arm = x) = some k ∧
            ∃ c ∈ k.effective, p (s.guard.entryOf c)
          let other := anyCell fun e => e.owner = some x.other ∧ e.vacating = false
          let vacating := ¬other ∧ anyCell fun e => e.owner = some x.other ∧ e.vacating = true
          let reserved := ¬other ∧ ¬vacating ∧ anyCell fun e => e.reservedFor = some x.other
          is.discarded = was.discarded ∧
          (other → is.waitOther = sat32 (was.waitOther + 1)) ∧ (¬other → is.waitOther = was.waitOther) ∧
          (vacating → is.waitVacating = sat32 (was.waitVacating + 1)) ∧ (¬vacating → is.waitVacating = was.waitVacating) ∧
          (reserved → is.waitReserved = sat32 (was.waitReserved + 1)) ∧ (¬reserved → is.waitReserved = was.waitReserved) ∧
          ∀ n < 4,
            let k := was.selectable.get n
            let counts := (k.selection = .waitTotal ∧ (other ∨ vacating ∨ reserved)) ∨ (k.selection = .waitOther ∧ other) ∨
              (k.selection = .waitVacating ∧ vacating) ∨ (k.selection = .waitReserved ∧ reserved) ∨
              (k.selection = .timeSlowOrAbove ∧ (s.guard.arm x).unit.level ≠ .none)
            (counts → is.selectable.get n = ⟨k.selection, sat32 (k.value + 1)⟩) ∧ (¬counts → is.selectable.get n = k))

/-! ## The arithmetic of the calculator, the monitor and the action unit -/

/-- R37 and R38: the stopping distance is the quotient rounded up once, then capped at 4095; and what the calculator makes
of it: the components clamped to ten thousand either way, the speed, the box about each position and about both, and the
lowest height. -/
def Obligations.StoppingDistance : Prop :=
  (∀ (c : ArmConfig) (new : Sample),
    let clamp := fun v : Int => if v < -10000 then -10000 else if 10000 < v then 10000 else v
    let v := (⟨clamp new.velocity.x, clamp new.velocity.y, clamp new.velocity.z⟩ : Velocity)
    let d := fun component => (stoppingDistance c.tReact c.decel component : Int)
    let low := fun x speed : Int => x - c.radius - if speed < 0 then d speed else 0
    let high := fun x speed : Int => x + c.radius + if speed < 0 then 0 else d speed
    let box := fun p : Position => (⟨low p.x v.x, high p.x v.x, low p.y v.y, high p.y v.y⟩ : Box)
    let zbase := match new.p2 with | none => new.p1.z | some p2 => min new.p1.z p2.z
    new.velocity.clamped = v ∧ v.speed = max (max v.x.natAbs v.y.natAbs) v.z.natAbs ∧
    (new.p2 = none → stoppingBox c new = box new.p1) ∧
    (∀ p2, new.p2 = some p2 → stoppingBox c new =
      ⟨min (box new.p1).xlo (box p2).xlo, max (box new.p1).xhi (box p2).xhi,
        min (box new.p1).ylo (box p2).ylo, max (box new.p1).yhi (box p2).yhi⟩) ∧
    (v.z < 0 → lowestHeight c new = zbase - d v.z) ∧ (0 ≤ v.z → lowestHeight c new = zbase)) ∧
  ∀ (tReact decel : Nat) (v : Int), 0 < decel →
    let numerator := v.natAbs * tReact * decel + 50 * (v.natAbs * v.natAbs)
    (v = 0 → stoppingDistance tReact decel v = 0) ∧
    (v ≠ 0 → ∃ d, 1 ≤ d ∧ (d - 1) * (1000 * decel) < numerator ∧ numerator ≤ d * (1000 * decel) ∧
      (4095 < d → stoppingDistance tReact decel v = 4095) ∧ (d ≤ 4095 → stoppingDistance tReact decel v = d)) ∧
    stoppingDistance tReact decel v ≤ 4095

/-- R43: a box that misses the grid covers nothing; one that meets it covers a rectangle inside the grid. -/
def Obligations.FootprintInsideGrid : Prop :=
  ∀ (b : Box) (c : ConfigSet), 0 < c.pitch → 0 < c.nc → 0 < c.nr → b.xlo ≤ b.xhi → b.ylo ≤ b.yhi →
    let misses := c.columnOf b.xhi < 0 ∨ (c.nc : Int) - 1 < c.columnOf b.xlo ∨ c.rowOf b.yhi < 0 ∨
      (c.nr : Int) - 1 < c.rowOf b.ylo
    (misses → b.cellRange c = none) ∧
    (¬misses → ∃ r, b.cellRange c = some r ∧
      (r.colLo : Int) = max 0 (c.columnOf b.xlo) ∧ (r.colHi : Int) = min ((c.nc : Int) - 1) (c.columnOf b.xhi) ∧
      (r.rowLo : Int) = max 0 (c.rowOf b.ylo) ∧ (r.rowHi : Int) = min ((c.nr : Int) - 1) (c.rowOf b.yhi) ∧
      r.colLo ≤ r.colHi ∧ r.rowLo ≤ r.rowHi ∧ r.colHi < c.nc ∧ r.rowHi < c.nr ∧
      r.cells.length = (r.colHi - r.colLo + 1) * (r.rowHi - r.rowLo + 1) ∧
      (∀ k, k ∈ r.cells ↔ r.covers k = true) ∧ r.cells.Pairwise fun k l => k.before l = true)

/-- R44 and R45: the height test with its hysteresis, and the zone state and footprint it gives with the box. -/
def Obligations.ZoneOfSample : Prop :=
  ∀ (k : Calculator) (c : ConfigSet) (x : Arm) (new : Sample),
    let threshold : Int := if k.zone = .inside then (c.zEnter : Int) + c.zHyst else c.zEnter
    let box := stoppingBox (c.arm x) new
    let low := lowestHeight (c.arm x) new < threshold
    (k.sample c x new).box = some box ∧ (k.sample c x new).lastSpeed = new.velocity.clamped.speed ∧
    (∀ r, low → box.cellRange c = some r →
      (k.sample c x new).zone = .inside ∧ (k.sample c x new).footprint = some r) ∧
    (¬low ∨ box.cellRange c = none → (k.sample c x new).zone = .clear ∧ (k.sample c x new).footprint = none)

/-- R51 and R52: the kind each cell gives, exactly one row of the table for each, and the verdict as the set of kinds. -/
def Obligations.VerdictOfCells : Prop :=
  ∀ (x : Arm) (es : List Entry),
    let own := fun e : Entry => e.owner = some x
    let others := fun e : Entry => e.owner = some x.other
    let fenced := fun e : Entry => e.owner = none ∧ (e.hostFence = true ∨ e.faultFence = .retired ∨ e.faultFence = .poisoned)
    let free := fun e : Entry => e.owner = none ∧ e.hostFence = false ∧ e.faultFence = .none
    (∀ e, (own e ∧ ¬others e ∧ ¬fenced e ∧ ¬free e) ∨ (¬own e ∧ others e ∧ ¬fenced e ∧ ¬free e) ∨
      (¬own e ∧ ¬others e ∧ fenced e ∧ ¬free e) ∨ (¬own e ∧ ¬others e ∧ ¬fenced e ∧ free e)) ∧
    ((verdictOf x es).intrusion = true ↔ ∃ e ∈ es, others e) ∧
    ((verdictOf x es).fenceEntry = true ↔ ∃ e ∈ es, fenced e) ∧
    ((verdictOf x es).reach = true ↔ ∃ e ∈ es, free e)

/-- R8, R9 and R10: which shapes are valid on a grid, and which cells a valid shape has, in row-major order; and the shape
that a request or a plan entry carries, by its kind and its six shape bytes. That bits 4..7 of a QUAD's selection byte have
no effect is the model's choice (log entry 36). -/
def Obligations.ShapesAndCells : Prop :=
  (∀ (kind : Nat) (b : List Byte),
    (kind = 1 → parseShape kind b = some (.rect (u8 b 0) (u8 b 1) (u8 b 2) (u8 b 3))) ∧
    (kind = 2 → ∃ columns, parseShape kind b = some (.strip (u8 b 0) columns) ∧
      ∀ c < 32, columns.getLsbD c = (u8 b (1 + c / 8)).testBit (c % 8)) ∧
    (kind = 3 → ∃ positions, parseShape kind b = some (.quad (u8 b 0) (u8 b 1) positions) ∧
      ∀ i < 4, positions.getLsbD i = (u8 b 2).testBit i) ∧
    (kind = 0 ∨ 3 < kind → parseShape kind b = none)) ∧
  (∀ (cfg : ConfigSet) (p : List Byte) (i : Nat) (shape : Shape), shapeAt cfg p i = some shape ↔
    parseShape (u8 p i) (p.drop (i + 1)) = some shape ∧ shape.valid cfg.nc cfg.nr = true) ∧
  ∀ cfg : ConfigSet,
    (∀ cLo cHi rLo rHi : Nat,
      let shape := Shape.rect cLo cHi rLo rHi
      (shape.valid cfg.nc cfg.nr = true ↔ cLo ≤ cHi ∧ cHi < cfg.nc ∧ rLo ≤ rHi ∧ rHi < cfg.nr) ∧
      (shape.valid cfg.nc cfg.nr = true →
        (shape.cells cfg).length = (cHi - cLo + 1) * (rHi - rLo + 1) ∧
        ∀ k, k ∈ shape.cells cfg ↔ cLo ≤ k.col ∧ k.col ≤ cHi ∧ rLo ≤ k.row ∧ k.row ≤ rHi)) ∧
    (∀ (r : Nat) (columns : BitVec 32),
      let shape := Shape.strip r columns
      (shape.valid cfg.nc cfg.nr = true ↔
        r < cfg.nr ∧ (∃ c < 32, columns.getLsbD c = true) ∧ ∀ c < 32, columns.getLsbD c = true → c < cfg.nc) ∧
      (shape.valid cfg.nc cfg.nr = true →
        ∀ k, k ∈ shape.cells cfg ↔ k.row = r ∧ columns.getLsbD k.col = true)) ∧
    (∀ (c r : Nat) (positions : BitVec 4),
      let shape := Shape.quad c r positions
      (shape.valid cfg.nc cfg.nr = true ↔
        c + 2 ≤ cfg.nc ∧ r + 2 ≤ cfg.nr ∧ ∃ i < 4, positions.getLsbD i = true) ∧
      (shape.valid cfg.nc cfg.nr = true → ∀ k, k ∈ shape.cells cfg ↔
        (k = ⟨c, r⟩ ∧ positions.getLsbD 0 = true) ∨ (k = ⟨c + 1, r⟩ ∧ positions.getLsbD 1 = true) ∨
        (k = ⟨c, r + 1⟩ ∧ positions.getLsbD 2 = true) ∨ (k = ⟨c + 1, r + 1⟩ ∧ positions.getLsbD 3 = true))) ∧
    ∀ shape : Shape, (shape.cells cfg).Pairwise fun k l => k.before l = true

/-- R1: the cell of a point. -/
def Obligations.CellOfPoint : Prop :=
  ∀ (c : ConfigSet) (x y : Int), 0 < c.pitch →
    (∀ k, c.columnOf x = k ↔ c.x0 + k * c.pitch ≤ x ∧ x < c.x0 + (k + 1) * c.pitch) ∧
    (∀ k, c.rowOf y = k ↔ c.y0 + k * c.pitch ≤ y ∧ y < c.y0 + (k + 1) * c.pitch) ∧
    (∀ k : Cell, c.cellAt x y = some k ↔ c.columnOf x = k.col ∧ c.rowOf y = k.row ∧ k.col < c.nc ∧ k.row < c.nr) ∧
    (∀ k, k ∈ c.gridCells ↔ k.col < c.nc ∧ k.row < c.nr) ∧ c.gridCells.Pairwise fun k l => k.before l = true

/-- The level of some sources: no lower than the action of any that is latched or asserted, and NONE or one of those
actions, the action of a configurable source being the configured one, of NO_POSITION and REVOKED HOLD, and of ESCALATED the
escalated level; the lines it gives are those of the table of permit lines. -/
def Obligations.LevelIsHighestAction : Prop :=
  (∀ (c : ArmConfig) (s : Sources),
    (∀ src, s.has src = true → (sourceAction c s src).code ≤ (levelOf c s).code) ∧
    (levelOf c s = .none ∨ ∃ src, s.has src = true ∧ levelOf c s = sourceAction c s src)) ∧
  (∀ (c : ArmConfig) (s : Sources),
    sourceAction c s .reach = c.actions.reach ∧ sourceAction c s .intrusion = c.actions.intrusion ∧
    sourceAction c s .fenceEntry = c.actions.fenceEntry ∧ sourceAction c s .sampleGap = c.actions.sampleGap ∧
    sourceAction c s .sampleEarly = c.actions.sampleEarly ∧ sourceAction c s .disagree = c.actions.disagree ∧
    sourceAction c s .noPosition = .hold ∧ sourceAction c s .revoked = .hold ∧
    ∀ e, s.escalated = some e → sourceAction c s .escalated = match e with | .hold => .hold | .halt => .halt) ∧
  ∀ l : Level, (l.givesSpeed, l.givesMove, l.givesPower) =
    match l with
    | .none => (true, true, true)
    | .slow => (false, true, true)
    | .hold => (false, false, true)
    | .halt => (false, false, false)

/-! ## A store that holds -/

/-- While every read and verify finds its entry good, no command poisons a cell or touches a section's state, its
error counter or its device counters, but for the leak and for what can bring about a RESTART or a power cycle. -/
def Obligations.GoodReadsHarmNothing : Prop :=
  ∀ (c : Instr) (s t : State), mayRestart c = false → c ≠ .leakTimerExpiry → exec c s = .next t →
    (∀ f ∈ s.guard.findings, f = .good) → t.guard.reads = s.guard.reads →
    t.guard.poisoned = s.guard.poisoned ∧ t.guard.sections = s.guard.sections ∧
      ∃ n, t.guard.findings = s.guard.findings.drop n

/-! ## Invariants -/

/-- The store keeps its canonical form. -/
def Obligations.StoreStaysCanonical : Prop :=
  ∀ s t : State, storeWf s.guard.store = true → step s = .next t → storeWf t.guard.store = true

/-- The tray stays in order: the map agrees with the records, no cell is owned by both arms, the records name cells of the
grid, claims are told apart; and the scrub cursor stays in its visit list, which keeps its visits on the grid (its value in
INIT is the model's, log entry 40). -/
def Obligations.TrayStaysInOrder : Prop :=
  ∀ s t : State, storeWf s.guard.store = true ∧ s.guard.trayInOrder ∧ s.guard.cursorInList → step s = .next t →
    storeWf t.guard.store = true ∧ t.guard.trayInOrder ∧ t.guard.cursorInList

/-- Each arm's level stays that of its sources, HALT in INIT, and its permit lines stay behind it, all dropped while VPERM
is absent. -/
def Obligations.LevelsStayRight : Prop :=
  ∀ s t : State, (∀ x, s.guard.levelAgrees x ∧ s.guard.linesFollow x) ∧ s.guard.absentCuts → step s = .next t →
    (∀ x, t.guard.levelAgrees x ∧ t.guard.linesFollow x) ∧ t.guard.absentCuts

/-- At most two claims of an arm stand in the table, under different numbers; INIT has none and SETUP no PLAN claim. -/
def Obligations.ClaimTableStaysInOrder : Prop :=
  ∀ s t : State, s.guard.claimsFit ∧ s.guard.keysDiffer ∧ s.guard.claimsFitMode → step s = .next t →
    t.guard.claimsFit ∧ t.guard.keysDiffer ∧ t.guard.claimsFitMode

/-- Every slot's issued count stays the sum of its tallies and its claims in the table, and each arm's slots stay in one of
their combinations: never both ACTIVE, LOADED only behind ACTIVE. -/
def Obligations.PlanAccountsBalance : Prop :=
  ∀ s t : State, s.guard.plansInOrder → step s = .next t → t.guard.plansInOrder

/-- Every queue stays within its size. -/
def Obligations.QueuesStayWithinSize : Prop :=
  ∀ s t : State, s.link.fits → step s = .next t → t.link.fits

/-- Some section stays active. -/
def Obligations.SomeSectionStaysActive : Prop :=
  ∀ s t : State, s.guard.someActive ∧ s.guard.cfg.nc ≤ 32 → step s = .next t →
    t.guard.someActive ∧ t.guard.cfg.nc ≤ 32

/-- Each arm's zone state and what goes with it stay in order. -/
def Obligations.ZonesStayInOrder : Prop :=
  ∀ s t : State, (∀ x, (s.guard.arm x).zoneInOrder) → step s = .next t → ∀ x, (t.guard.arm x).zoneInOrder

/-- A running escalation timer belongs to the level the arm is at. -/
def Obligations.TimersBelongToLevel : Prop :=
  ∀ s t : State, (∀ x, (s.guard.arm x).unit.timersFit) → step s = .next t → ∀ x, (t.guard.arm x).unit.timersFit

/-- Every claim's effective priority stays between its base priority and 7. -/
def Obligations.PrioritiesStayInRange : Prop :=
  ∀ s t : State, s.guard.prioritiesFit → step s = .next t → t.guard.prioritiesFit

/-- All of these hold after reset; the scrub cursor's value there is the model's (log entry 40). -/
def Obligations.ResetIsInOrder : Prop :=
  storeWf State.reset.guard.store = true ∧ State.reset.guard.trayInOrder ∧ State.reset.guard.cursorInList ∧
  (∀ x, State.reset.guard.levelAgrees x ∧ State.reset.guard.linesFollow x) ∧ State.reset.guard.absentCuts ∧
  State.reset.guard.claimsFit ∧ State.reset.guard.keysDiffer ∧ State.reset.guard.claimsFitMode ∧
  State.reset.guard.plansInOrder ∧ State.reset.link.fits ∧ State.reset.guard.someActive ∧
  State.reset.guard.cfg.nc ≤ 32 ∧ (∀ x, (State.reset.guard.arm x).zoneInOrder) ∧
  (∀ x, (State.reset.guard.arm x).unit.timersFit) ∧ State.reset.guard.prioritiesFit
end

