-- ==== Sys2Proof/Laws/State.lean ====
section
/-! SUPPORT. What each update of the state leaves: one lemma per field per update, so that no proof unfolds a record
update, and the reads of an arm after a write of an arm. -/

namespace Sys2Proof.Machine

/-! ## One arm changed -/

@[simp] theorem Guard.onArm_mode (g : Guard) (x : Arm) (f : ArmState → ArmState) : (g.onArm x f).mode = g.mode := by
  cases x <;> rfl

@[simp] theorem Guard.onArm_now (g : Guard) (x : Arm) (f : ArmState → ArmState) : (g.onArm x f).now = g.now := by
  cases x <;> rfl

@[simp] theorem Guard.onArm_powered (g : Guard) (x : Arm) (f : ArmState → ArmState) : (g.onArm x f).powered = g.powered := by
  cases x <;> rfl

@[simp] theorem Guard.onArm_permitSupply (g : Guard) (x : Arm) (f : ArmState → ArmState) : (g.onArm x f).permitSupply = g.permitSupply := by
  cases x <;> rfl
@[simp] theorem Guard.onArm_linesCut (g : Guard) (x : Arm) (f : ArmState → ArmState) : (g.onArm x f).linesCut = g.linesCut := by
  cases x <;> rfl

@[simp] theorem Guard.onArm_cfg (g : Guard) (x : Arm) (f : ArmState → ArmState) : (g.onArm x f).cfg = g.cfg := by
  cases x <;> rfl

@[simp] theorem Guard.onArm_claims (g : Guard) (x : Arm) (f : ArmState → ArmState) : (g.onArm x f).claims = g.claims := by
  cases x <;> rfl

@[simp] theorem Guard.onArm_lastGranted (g : Guard) (x : Arm) (f : ArmState → ArmState) : (g.onArm x f).lastGranted = g.lastGranted := by
  cases x <;> rfl

@[simp] theorem Guard.onArm_fences (g : Guard) (x : Arm) (f : ArmState → ArmState) : (g.onArm x f).fences = g.fences := by
  cases x <;> rfl

@[simp] theorem Guard.onArm_sections (g : Guard) (x : Arm) (f : ArmState → ArmState) : (g.onArm x f).sections = g.sections := by
  cases x <;> rfl

@[simp] theorem Guard.onArm_poisoned (g : Guard) (x : Arm) (f : ArmState → ArmState) : (g.onArm x f).poisoned = g.poisoned := by
  cases x <;> rfl

@[simp] theorem Guard.onArm_store (g : Guard) (x : Arm) (f : ArmState → ArmState) : (g.onArm x f).store = g.store := by
  cases x <;> rfl

@[simp] theorem Guard.onArm_leakTimer (g : Guard) (x : Arm) (f : ArmState → ArmState) : (g.onArm x f).leakTimer = g.leakTimer := by
  cases x <;> rfl

@[simp] theorem Guard.onArm_scrub (g : Guard) (x : Arm) (f : ArmState → ArmState) : (g.onArm x f).scrub = g.scrub := by
  cases x <;> rfl

@[simp] theorem Guard.onArm_scrubPasses (g : Guard) (x : Arm) (f : ArmState → ArmState) : (g.onArm x f).scrubPasses = g.scrubPasses := by
  cases x <;> rfl

@[simp] theorem Guard.onArm_findings (g : Guard) (x : Arm) (f : ArmState → ArmState) : (g.onArm x f).findings = g.findings := by
  cases x <;> rfl

@[simp] theorem Guard.onArm_reads (g : Guard) (x : Arm) (f : ArmState → ArmState) : (g.onArm x f).reads = g.reads := by
  cases x <;> rfl

@[simp] theorem Guard.arm_onArm (g : Guard) (x : Arm) (f : ArmState → ArmState) : (g.onArm x f).arm x = f (g.arm x) := by
  cases x <;> rfl

@[simp] theorem Guard.arm_onArm_other (g : Guard) (x : Arm) (f : ArmState → ArmState) :
    (g.onArm x f).arm x.other = g.arm x.other := by
  cases x <;> rfl

/-- An arm after a change of an arm, by whether it is the same one. -/
theorem Guard.arm_onArm_eq (g : Guard) (x y : Arm) (f : ArmState → ArmState) :
    (g.onArm x f).arm y = if x = y then f (g.arm y) else g.arm y := by
  cases x <;> cases y <;> rfl

/-! ## One section changed -/

@[simp] theorem Guard.onSection_mode (g : Guard) (s : Nat) (f : SectionState → SectionState) : (g.onSection s f).mode = g.mode := rfl

@[simp] theorem Guard.onSection_now (g : Guard) (s : Nat) (f : SectionState → SectionState) : (g.onSection s f).now = g.now := rfl

@[simp] theorem Guard.onSection_powered (g : Guard) (s : Nat) (f : SectionState → SectionState) : (g.onSection s f).powered = g.powered := rfl

@[simp] theorem Guard.onSection_permitSupply (g : Guard) (s : Nat) (f : SectionState → SectionState) : (g.onSection s f).permitSupply = g.permitSupply := rfl
@[simp] theorem Guard.onSection_linesCut (g : Guard) (s : Nat) (f : SectionState → SectionState) : (g.onSection s f).linesCut = g.linesCut := rfl

@[simp] theorem Guard.onSection_cfg (g : Guard) (s : Nat) (f : SectionState → SectionState) : (g.onSection s f).cfg = g.cfg := rfl

@[simp] theorem Guard.onSection_a (g : Guard) (s : Nat) (f : SectionState → SectionState) : (g.onSection s f).a = g.a := rfl

@[simp] theorem Guard.onSection_b (g : Guard) (s : Nat) (f : SectionState → SectionState) : (g.onSection s f).b = g.b := rfl

@[simp] theorem Guard.onSection_claims (g : Guard) (s : Nat) (f : SectionState → SectionState) : (g.onSection s f).claims = g.claims := rfl

@[simp] theorem Guard.onSection_lastGranted (g : Guard) (s : Nat) (f : SectionState → SectionState) : (g.onSection s f).lastGranted = g.lastGranted := rfl

@[simp] theorem Guard.onSection_fences (g : Guard) (s : Nat) (f : SectionState → SectionState) : (g.onSection s f).fences = g.fences := rfl

@[simp] theorem Guard.onSection_poisoned (g : Guard) (s : Nat) (f : SectionState → SectionState) : (g.onSection s f).poisoned = g.poisoned := rfl

@[simp] theorem Guard.onSection_store (g : Guard) (s : Nat) (f : SectionState → SectionState) : (g.onSection s f).store = g.store := rfl

@[simp] theorem Guard.onSection_leakTimer (g : Guard) (s : Nat) (f : SectionState → SectionState) : (g.onSection s f).leakTimer = g.leakTimer := rfl

@[simp] theorem Guard.onSection_scrub (g : Guard) (s : Nat) (f : SectionState → SectionState) : (g.onSection s f).scrub = g.scrub := rfl

@[simp] theorem Guard.onSection_scrubPasses (g : Guard) (s : Nat) (f : SectionState → SectionState) : (g.onSection s f).scrubPasses = g.scrubPasses := rfl

@[simp] theorem Guard.onSection_findings (g : Guard) (s : Nat) (f : SectionState → SectionState) : (g.onSection s f).findings = g.findings := rfl

@[simp] theorem Guard.onSection_reads (g : Guard) (s : Nat) (f : SectionState → SectionState) : (g.onSection s f).reads = g.reads := rfl

@[simp] theorem Guard.onSection_arm (g : Guard) (s : Nat) (f : SectionState → SectionState) (x : Arm) : (g.onSection s f).arm x = g.arm x := by
  cases x <;> rfl

/-! ## One entry written from the records -/

@[simp] theorem Guard.reindexCell_mode (g : Guard) (c : Cell) : (g.reindexCell c).mode = g.mode := rfl

@[simp] theorem Guard.reindexCell_now (g : Guard) (c : Cell) : (g.reindexCell c).now = g.now := rfl

@[simp] theorem Guard.reindexCell_powered (g : Guard) (c : Cell) : (g.reindexCell c).powered = g.powered := rfl

@[simp] theorem Guard.reindexCell_permitSupply (g : Guard) (c : Cell) : (g.reindexCell c).permitSupply = g.permitSupply := rfl
@[simp] theorem Guard.reindexCell_linesCut (g : Guard) (c : Cell) : (g.reindexCell c).linesCut = g.linesCut := rfl

@[simp] theorem Guard.reindexCell_cfg (g : Guard) (c : Cell) : (g.reindexCell c).cfg = g.cfg := rfl

@[simp] theorem Guard.reindexCell_a (g : Guard) (c : Cell) : (g.reindexCell c).a = g.a := rfl

@[simp] theorem Guard.reindexCell_b (g : Guard) (c : Cell) : (g.reindexCell c).b = g.b := rfl

@[simp] theorem Guard.reindexCell_claims (g : Guard) (c : Cell) : (g.reindexCell c).claims = g.claims := rfl

@[simp] theorem Guard.reindexCell_lastGranted (g : Guard) (c : Cell) : (g.reindexCell c).lastGranted = g.lastGranted := rfl

@[simp] theorem Guard.reindexCell_fences (g : Guard) (c : Cell) : (g.reindexCell c).fences = g.fences := rfl

@[simp] theorem Guard.reindexCell_sections (g : Guard) (c : Cell) : (g.reindexCell c).sections = g.sections := rfl

@[simp] theorem Guard.reindexCell_poisoned (g : Guard) (c : Cell) : (g.reindexCell c).poisoned = g.poisoned := rfl

@[simp] theorem Guard.reindexCell_leakTimer (g : Guard) (c : Cell) : (g.reindexCell c).leakTimer = g.leakTimer := rfl

@[simp] theorem Guard.reindexCell_scrub (g : Guard) (c : Cell) : (g.reindexCell c).scrub = g.scrub := rfl

@[simp] theorem Guard.reindexCell_scrubPasses (g : Guard) (c : Cell) : (g.reindexCell c).scrubPasses = g.scrubPasses := rfl

@[simp] theorem Guard.reindexCell_findings (g : Guard) (c : Cell) : (g.reindexCell c).findings = g.findings := rfl

@[simp] theorem Guard.reindexCell_reads (g : Guard) (c : Cell) : (g.reindexCell c).reads = g.reads := rfl

@[simp] theorem Guard.reindexCell_arm (g : Guard) (c : Cell) (x : Arm) : (g.reindexCell c).arm x = g.arm x := by
  cases x <;> rfl

/-! ## One claim changed -/

@[simp] theorem Guard.onClaim_mode (g : Guard) (k : ClaimKey) (f : Claim → Claim) : (g.onClaim k f).mode = g.mode := rfl

@[simp] theorem Guard.onClaim_now (g : Guard) (k : ClaimKey) (f : Claim → Claim) : (g.onClaim k f).now = g.now := rfl

@[simp] theorem Guard.onClaim_powered (g : Guard) (k : ClaimKey) (f : Claim → Claim) : (g.onClaim k f).powered = g.powered := rfl

@[simp] theorem Guard.onClaim_permitSupply (g : Guard) (k : ClaimKey) (f : Claim → Claim) : (g.onClaim k f).permitSupply = g.permitSupply := rfl
@[simp] theorem Guard.onClaim_linesCut (g : Guard) (k : ClaimKey) (f : Claim → Claim) : (g.onClaim k f).linesCut = g.linesCut := rfl

@[simp] theorem Guard.onClaim_cfg (g : Guard) (k : ClaimKey) (f : Claim → Claim) : (g.onClaim k f).cfg = g.cfg := rfl

@[simp] theorem Guard.onClaim_a (g : Guard) (k : ClaimKey) (f : Claim → Claim) : (g.onClaim k f).a = g.a := rfl

@[simp] theorem Guard.onClaim_b (g : Guard) (k : ClaimKey) (f : Claim → Claim) : (g.onClaim k f).b = g.b := rfl

@[simp] theorem Guard.onClaim_lastGranted (g : Guard) (k : ClaimKey) (f : Claim → Claim) : (g.onClaim k f).lastGranted = g.lastGranted := rfl

@[simp] theorem Guard.onClaim_fences (g : Guard) (k : ClaimKey) (f : Claim → Claim) : (g.onClaim k f).fences = g.fences := rfl

@[simp] theorem Guard.onClaim_sections (g : Guard) (k : ClaimKey) (f : Claim → Claim) : (g.onClaim k f).sections = g.sections := rfl

@[simp] theorem Guard.onClaim_poisoned (g : Guard) (k : ClaimKey) (f : Claim → Claim) : (g.onClaim k f).poisoned = g.poisoned := rfl

@[simp] theorem Guard.onClaim_store (g : Guard) (k : ClaimKey) (f : Claim → Claim) : (g.onClaim k f).store = g.store := rfl

@[simp] theorem Guard.onClaim_leakTimer (g : Guard) (k : ClaimKey) (f : Claim → Claim) : (g.onClaim k f).leakTimer = g.leakTimer := rfl

@[simp] theorem Guard.onClaim_scrub (g : Guard) (k : ClaimKey) (f : Claim → Claim) : (g.onClaim k f).scrub = g.scrub := rfl

@[simp] theorem Guard.onClaim_scrubPasses (g : Guard) (k : ClaimKey) (f : Claim → Claim) : (g.onClaim k f).scrubPasses = g.scrubPasses := rfl

@[simp] theorem Guard.onClaim_findings (g : Guard) (k : ClaimKey) (f : Claim → Claim) : (g.onClaim k f).findings = g.findings := rfl

@[simp] theorem Guard.onClaim_reads (g : Guard) (k : ClaimKey) (f : Claim → Claim) : (g.onClaim k f).reads = g.reads := rfl

@[simp] theorem Guard.onClaim_arm (g : Guard) (k : ClaimKey) (f : Claim → Claim) (x : Arm) : (g.onClaim k f).arm x = g.arm x := by
  cases x <;> rfl

/-! ## One claim removed -/

@[simp] theorem Guard.removeClaim_mode (g : Guard) (k : ClaimKey) : (g.removeClaim k).mode = g.mode := rfl

@[simp] theorem Guard.removeClaim_now (g : Guard) (k : ClaimKey) : (g.removeClaim k).now = g.now := rfl

@[simp] theorem Guard.removeClaim_powered (g : Guard) (k : ClaimKey) : (g.removeClaim k).powered = g.powered := rfl

@[simp] theorem Guard.removeClaim_permitSupply (g : Guard) (k : ClaimKey) : (g.removeClaim k).permitSupply = g.permitSupply := rfl
@[simp] theorem Guard.removeClaim_linesCut (g : Guard) (k : ClaimKey) : (g.removeClaim k).linesCut = g.linesCut := rfl

@[simp] theorem Guard.removeClaim_cfg (g : Guard) (k : ClaimKey) : (g.removeClaim k).cfg = g.cfg := rfl

@[simp] theorem Guard.removeClaim_a (g : Guard) (k : ClaimKey) : (g.removeClaim k).a = g.a := rfl

@[simp] theorem Guard.removeClaim_b (g : Guard) (k : ClaimKey) : (g.removeClaim k).b = g.b := rfl

@[simp] theorem Guard.removeClaim_lastGranted (g : Guard) (k : ClaimKey) : (g.removeClaim k).lastGranted = g.lastGranted := rfl

@[simp] theorem Guard.removeClaim_fences (g : Guard) (k : ClaimKey) : (g.removeClaim k).fences = g.fences := rfl

@[simp] theorem Guard.removeClaim_sections (g : Guard) (k : ClaimKey) : (g.removeClaim k).sections = g.sections := rfl

@[simp] theorem Guard.removeClaim_poisoned (g : Guard) (k : ClaimKey) : (g.removeClaim k).poisoned = g.poisoned := rfl

@[simp] theorem Guard.removeClaim_store (g : Guard) (k : ClaimKey) : (g.removeClaim k).store = g.store := rfl

@[simp] theorem Guard.removeClaim_leakTimer (g : Guard) (k : ClaimKey) : (g.removeClaim k).leakTimer = g.leakTimer := rfl

@[simp] theorem Guard.removeClaim_scrub (g : Guard) (k : ClaimKey) : (g.removeClaim k).scrub = g.scrub := rfl

@[simp] theorem Guard.removeClaim_scrubPasses (g : Guard) (k : ClaimKey) : (g.removeClaim k).scrubPasses = g.scrubPasses := rfl

@[simp] theorem Guard.removeClaim_findings (g : Guard) (k : ClaimKey) : (g.removeClaim k).findings = g.findings := rfl

@[simp] theorem Guard.removeClaim_reads (g : Guard) (k : ClaimKey) : (g.removeClaim k).reads = g.reads := rfl

@[simp] theorem Guard.removeClaim_arm (g : Guard) (k : ClaimKey) (x : Arm) : (g.removeClaim k).arm x = g.arm x := by
  cases x <;> rfl

/-! ## A junior promoted -/

@[simp] theorem Guard.promote_mode (g : Guard) (y : Arm) : (g.promote y).mode = g.mode := rfl

@[simp] theorem Guard.promote_now (g : Guard) (y : Arm) : (g.promote y).now = g.now := rfl

@[simp] theorem Guard.promote_powered (g : Guard) (y : Arm) : (g.promote y).powered = g.powered := rfl

@[simp] theorem Guard.promote_permitSupply (g : Guard) (y : Arm) : (g.promote y).permitSupply = g.permitSupply := rfl
@[simp] theorem Guard.promote_linesCut (g : Guard) (y : Arm) : (g.promote y).linesCut = g.linesCut := rfl

@[simp] theorem Guard.promote_cfg (g : Guard) (y : Arm) : (g.promote y).cfg = g.cfg := rfl

@[simp] theorem Guard.promote_a (g : Guard) (y : Arm) : (g.promote y).a = g.a := rfl

@[simp] theorem Guard.promote_b (g : Guard) (y : Arm) : (g.promote y).b = g.b := rfl

@[simp] theorem Guard.promote_lastGranted (g : Guard) (y : Arm) : (g.promote y).lastGranted = g.lastGranted := rfl

@[simp] theorem Guard.promote_fences (g : Guard) (y : Arm) : (g.promote y).fences = g.fences := rfl

@[simp] theorem Guard.promote_sections (g : Guard) (y : Arm) : (g.promote y).sections = g.sections := rfl

@[simp] theorem Guard.promote_poisoned (g : Guard) (y : Arm) : (g.promote y).poisoned = g.poisoned := rfl

@[simp] theorem Guard.promote_store (g : Guard) (y : Arm) : (g.promote y).store = g.store := rfl

@[simp] theorem Guard.promote_leakTimer (g : Guard) (y : Arm) : (g.promote y).leakTimer = g.leakTimer := rfl

@[simp] theorem Guard.promote_scrub (g : Guard) (y : Arm) : (g.promote y).scrub = g.scrub := rfl

@[simp] theorem Guard.promote_scrubPasses (g : Guard) (y : Arm) : (g.promote y).scrubPasses = g.scrubPasses := rfl

@[simp] theorem Guard.promote_findings (g : Guard) (y : Arm) : (g.promote y).findings = g.findings := rfl

@[simp] theorem Guard.promote_reads (g : Guard) (y : Arm) : (g.promote y).reads = g.reads := rfl

@[simp] theorem Guard.promote_arm (g : Guard) (y : Arm) (x : Arm) : (g.promote y).arm x = g.arm x := by
  cases x <;> rfl

/-! ## The scrub cursor restarted -/

@[simp] theorem Guard.restartScrub_mode (g : Guard)  : (g.restartScrub).mode = g.mode := rfl

@[simp] theorem Guard.restartScrub_now (g : Guard)  : (g.restartScrub).now = g.now := rfl

@[simp] theorem Guard.restartScrub_powered (g : Guard)  : (g.restartScrub).powered = g.powered := rfl

@[simp] theorem Guard.restartScrub_permitSupply (g : Guard)  : (g.restartScrub).permitSupply = g.permitSupply := rfl
@[simp] theorem Guard.restartScrub_linesCut (g : Guard)  : (g.restartScrub).linesCut = g.linesCut := rfl

@[simp] theorem Guard.restartScrub_cfg (g : Guard)  : (g.restartScrub).cfg = g.cfg := rfl

@[simp] theorem Guard.restartScrub_a (g : Guard)  : (g.restartScrub).a = g.a := rfl

@[simp] theorem Guard.restartScrub_b (g : Guard)  : (g.restartScrub).b = g.b := rfl

@[simp] theorem Guard.restartScrub_claims (g : Guard)  : (g.restartScrub).claims = g.claims := rfl

@[simp] theorem Guard.restartScrub_lastGranted (g : Guard)  : (g.restartScrub).lastGranted = g.lastGranted := rfl

@[simp] theorem Guard.restartScrub_fences (g : Guard)  : (g.restartScrub).fences = g.fences := rfl

@[simp] theorem Guard.restartScrub_sections (g : Guard)  : (g.restartScrub).sections = g.sections := rfl

@[simp] theorem Guard.restartScrub_poisoned (g : Guard)  : (g.restartScrub).poisoned = g.poisoned := rfl

@[simp] theorem Guard.restartScrub_store (g : Guard)  : (g.restartScrub).store = g.store := rfl

@[simp] theorem Guard.restartScrub_leakTimer (g : Guard)  : (g.restartScrub).leakTimer = g.leakTimer := rfl

@[simp] theorem Guard.restartScrub_scrubPasses (g : Guard)  : (g.restartScrub).scrubPasses = g.scrubPasses := rfl

@[simp] theorem Guard.restartScrub_findings (g : Guard)  : (g.restartScrub).findings = g.findings := rfl

@[simp] theorem Guard.restartScrub_reads (g : Guard)  : (g.restartScrub).reads = g.reads := rfl

@[simp] theorem Guard.restartScrub_arm (g : Guard)  (x : Arm) : (g.restartScrub).arm x = g.arm x := by
  cases x <;> rfl

/-! ## Some entries written from the records -/

@[simp] theorem Guard.reindex_mode (g : Guard) (cells : CellSet) : (g.reindex cells).mode = g.mode := by
  induction cells generalizing g with
  | nil => rfl
  | cons c cs ih => exact (ih (g.reindexCell c)).trans rfl

@[simp] theorem Guard.reindex_now (g : Guard) (cells : CellSet) : (g.reindex cells).now = g.now := by
  induction cells generalizing g with
  | nil => rfl
  | cons c cs ih => exact (ih (g.reindexCell c)).trans rfl

@[simp] theorem Guard.reindex_powered (g : Guard) (cells : CellSet) : (g.reindex cells).powered = g.powered := by
  induction cells generalizing g with
  | nil => rfl
  | cons c cs ih => exact (ih (g.reindexCell c)).trans rfl

@[simp] theorem Guard.reindex_permitSupply (g : Guard) (cells : CellSet) : (g.reindex cells).permitSupply = g.permitSupply := by
  induction cells generalizing g with
  | nil => rfl
  | cons c cs ih => exact (ih (g.reindexCell c)).trans rfl
@[simp] theorem Guard.reindex_linesCut (g : Guard) (cells : CellSet) : (g.reindex cells).linesCut = g.linesCut := by
  induction cells generalizing g with
  | nil => rfl
  | cons c cs ih => exact (ih (g.reindexCell c)).trans rfl

@[simp] theorem Guard.reindex_cfg (g : Guard) (cells : CellSet) : (g.reindex cells).cfg = g.cfg := by
  induction cells generalizing g with
  | nil => rfl
  | cons c cs ih => exact (ih (g.reindexCell c)).trans rfl

@[simp] theorem Guard.reindex_a (g : Guard) (cells : CellSet) : (g.reindex cells).a = g.a := by
  induction cells generalizing g with
  | nil => rfl
  | cons c cs ih => exact (ih (g.reindexCell c)).trans rfl

@[simp] theorem Guard.reindex_b (g : Guard) (cells : CellSet) : (g.reindex cells).b = g.b := by
  induction cells generalizing g with
  | nil => rfl
  | cons c cs ih => exact (ih (g.reindexCell c)).trans rfl

@[simp] theorem Guard.reindex_claims (g : Guard) (cells : CellSet) : (g.reindex cells).claims = g.claims := by
  induction cells generalizing g with
  | nil => rfl
  | cons c cs ih => exact (ih (g.reindexCell c)).trans rfl

@[simp] theorem Guard.reindex_lastGranted (g : Guard) (cells : CellSet) : (g.reindex cells).lastGranted = g.lastGranted := by
  induction cells generalizing g with
  | nil => rfl
  | cons c cs ih => exact (ih (g.reindexCell c)).trans rfl

@[simp] theorem Guard.reindex_fences (g : Guard) (cells : CellSet) : (g.reindex cells).fences = g.fences := by
  induction cells generalizing g with
  | nil => rfl
  | cons c cs ih => exact (ih (g.reindexCell c)).trans rfl

@[simp] theorem Guard.reindex_sections (g : Guard) (cells : CellSet) : (g.reindex cells).sections = g.sections := by
  induction cells generalizing g with
  | nil => rfl
  | cons c cs ih => exact (ih (g.reindexCell c)).trans rfl

@[simp] theorem Guard.reindex_poisoned (g : Guard) (cells : CellSet) : (g.reindex cells).poisoned = g.poisoned := by
  induction cells generalizing g with
  | nil => rfl
  | cons c cs ih => exact (ih (g.reindexCell c)).trans rfl

@[simp] theorem Guard.reindex_leakTimer (g : Guard) (cells : CellSet) : (g.reindex cells).leakTimer = g.leakTimer := by
  induction cells generalizing g with
  | nil => rfl
  | cons c cs ih => exact (ih (g.reindexCell c)).trans rfl

@[simp] theorem Guard.reindex_scrub (g : Guard) (cells : CellSet) : (g.reindex cells).scrub = g.scrub := by
  induction cells generalizing g with
  | nil => rfl
  | cons c cs ih => exact (ih (g.reindexCell c)).trans rfl

@[simp] theorem Guard.reindex_scrubPasses (g : Guard) (cells : CellSet) : (g.reindex cells).scrubPasses = g.scrubPasses := by
  induction cells generalizing g with
  | nil => rfl
  | cons c cs ih => exact (ih (g.reindexCell c)).trans rfl

@[simp] theorem Guard.reindex_findings (g : Guard) (cells : CellSet) : (g.reindex cells).findings = g.findings := by
  induction cells generalizing g with
  | nil => rfl
  | cons c cs ih => exact (ih (g.reindexCell c)).trans rfl

@[simp] theorem Guard.reindex_reads (g : Guard) (cells : CellSet) : (g.reindex cells).reads = g.reads := by
  induction cells generalizing g with
  | nil => rfl
  | cons c cs ih => exact (ih (g.reindexCell c)).trans rfl

@[simp] theorem Guard.reindex_arm (g : Guard) (cells : CellSet) (x : Arm) : (g.reindex cells).arm x = g.arm x := by
  cases x
  · exact g.reindex_a cells
  · exact g.reindex_b cells

/-! ## Events -/

@[simp] theorem Event.onGuard_guard (ev : Event) (f : Guard → Guard) : (ev.onGuard f).guard = f ev.guard := rfl
@[simp] theorem Event.onGuard_out (ev : Event) (f : Guard → Guard) : (ev.onGuard f).out = ev.out := rfl

@[simp] theorem Event.onGuard_late (ev : Event) (f : Guard → Guard) : (ev.onGuard f).late = ev.late := rfl

@[simp] theorem Event.onGuard_replied (ev : Event) (f : Guard → Guard) : (ev.onGuard f).replied = ev.replied := rfl

@[simp] theorem Event.onGuard_reached (ev : Event) (f : Guard → Guard) : (ev.onGuard f).reached = ev.reached := rfl

@[simp] theorem Event.onGuard_touched (ev : Event) (f : Guard → Guard) : (ev.onGuard f).touched = ev.touched := rfl

@[simp] theorem Event.onGuard_reformed (ev : Event) (f : Guard → Guard) : (ev.onGuard f).reformed = ev.reformed := rfl

@[simp] theorem Event.onGuard_evaluate (ev : Event) (f : Guard → Guard) : (ev.onGuard f).evaluate = ev.evaluate := rfl

@[simp] theorem Event.onGuard_changes (ev : Event) (f : Guard → Guard) : (ev.onGuard f).changes = ev.changes := rfl

@[simp] theorem Event.onGuard_judged (ev : Event) (f : Guard → Guard) : (ev.onGuard f).judged = ev.judged := rfl

@[simp] theorem Event.onGuard_planLeft (ev : Event) (f : Guard → Guard) : (ev.onGuard f).planLeft = ev.planLeft := rfl

@[simp] theorem Event.post_guard (ev : Event) (p : Posted) : (ev.post p).guard = ev.guard := rfl

@[simp] theorem Event.post_late (ev : Event) (p : Posted) : (ev.post p).late = ev.late := rfl

@[simp] theorem Event.post_replied (ev : Event) (p : Posted) : (ev.post p).replied = ev.replied := rfl

@[simp] theorem Event.post_reached (ev : Event) (p : Posted) : (ev.post p).reached = ev.reached := rfl

@[simp] theorem Event.post_touched (ev : Event) (p : Posted) : (ev.post p).touched = ev.touched := rfl

@[simp] theorem Event.post_reformed (ev : Event) (p : Posted) : (ev.post p).reformed = ev.reformed := rfl

@[simp] theorem Event.post_evaluate (ev : Event) (p : Posted) : (ev.post p).evaluate = ev.evaluate := rfl

@[simp] theorem Event.post_changes (ev : Event) (p : Posted) : (ev.post p).changes = ev.changes := rfl

@[simp] theorem Event.post_judged (ev : Event) (p : Posted) : (ev.post p).judged = ev.judged := rfl

@[simp] theorem Event.post_planLeft (ev : Event) (p : Posted) : (ev.post p).planLeft = ev.planLeft := rfl

@[simp] theorem Event.callEvaluation_guard (ev : Event) (b : Bool) : (ev.callEvaluation b).guard = ev.guard := rfl

@[simp] theorem Event.callEvaluation_out (ev : Event) (b : Bool) : (ev.callEvaluation b).out = ev.out := rfl

@[simp] theorem Event.callEvaluation_late (ev : Event) (b : Bool) : (ev.callEvaluation b).late = ev.late := rfl

@[simp] theorem Event.callEvaluation_replied (ev : Event) (b : Bool) : (ev.callEvaluation b).replied = ev.replied := rfl

@[simp] theorem Event.callEvaluation_reached (ev : Event) (b : Bool) : (ev.callEvaluation b).reached = ev.reached := rfl

@[simp] theorem Event.callEvaluation_touched (ev : Event) (b : Bool) : (ev.callEvaluation b).touched = ev.touched := rfl

@[simp] theorem Event.callEvaluation_reformed (ev : Event) (b : Bool) : (ev.callEvaluation b).reformed = ev.reformed := rfl

@[simp] theorem Event.callEvaluation_changes (ev : Event) (b : Bool) : (ev.callEvaluation b).changes = ev.changes := rfl

@[simp] theorem Event.callEvaluation_judged (ev : Event) (b : Bool) : (ev.callEvaluation b).judged = ev.judged := rfl

@[simp] theorem Event.callEvaluation_planLeft (ev : Event) (b : Bool) : (ev.callEvaluation b).planLeft = ev.planLeft := rfl

@[simp] theorem Event.guard_onGuard (ev : Event) (f : Guard → Guard) : (ev.onGuard f).guard = f ev.guard := rfl

@[simp] theorem Event.out_post (ev : Event) (p : Posted) : (ev.post p).out = ev.out ++ [p] := rfl

@[simp] theorem Event.signal_guard (ev : Event) (x : Arm) (e : CountEvent) (n : Nat) :
    (ev.signal x e n).guard = ev.guard.signal x e n := rfl

@[simp] theorem Guard.event_guard (g : Guard) : g.event.guard = g := rfl

@[simp] theorem Guard.quietEvent_guard (g : Guard) : g.quietEvent.guard = g := rfl

/-! ## The links and the whole -/

@[simp] theorem Link.arm_onArm (l : Link) (x : Arm) (f : ArmLink → ArmLink) : (l.onArm x f).arm x = f (l.arm x) := by
  cases x <;> rfl

@[simp] theorem Link.arm_onArm_other (l : Link) (x : Arm) (f : ArmLink → ArmLink) :
    (l.onArm x f).arm x.other = l.arm x.other := by
  cases x <;> rfl

@[simp] theorem Link.onArm_sup (l : Link) (x : Arm) (f : ArmLink → ArmLink) : (l.onArm x f).sup = l.sup := by
  cases x <;> rfl

@[simp] theorem State.onSup_guard (s : State) (f : SupervisorLink → SupervisorLink) : (s.onSup f).guard = s.guard := rfl

@[simp] theorem State.onSup_pending (s : State) (f : SupervisorLink → SupervisorLink) : (s.onSup f).pending = s.pending := rfl

@[simp] theorem State.onSup_sup (s : State) (f : SupervisorLink → SupervisorLink) :
    (s.onSup f).link.sup = f s.link.sup := rfl

@[simp] theorem State.onSup_arm (s : State) (f : SupervisorLink → SupervisorLink) (x : Arm) :
    (s.onSup f).link.arm x = s.link.arm x := by
  cases x <;> rfl

@[simp] theorem State.onArmLink_guard (s : State) (x : Arm) (f : ArmLink → ArmLink) : (s.onArmLink x f).guard = s.guard := rfl

@[simp] theorem State.onArmLink_pending (s : State) (x : Arm) (f : ArmLink → ArmLink) :
    (s.onArmLink x f).pending = s.pending := rfl

@[simp] theorem State.onArmLink_link (s : State) (x : Arm) (f : ArmLink → ArmLink) :
    (s.onArmLink x f).link = s.link.onArm x f := rfl

end Sys2Proof.Machine
end

