-- ==== Sys2Proof/Laws/Store.lean ====
section
/-! SUPPORT. The cell store: a write is read back, leaves the other addresses, and keeps the canonical form (R2). -/

namespace Sys2Proof.Machine

theorem storeRead_of_risingFrom {m : CellStore} {low i : Nat} (h : risingFrom low m = true) (hi : i < low) :
    storeRead m i = .free := by
  induction m generalizing low with
  | nil => rfl
  | cons p rest ih =>
    obtain ⟨k, e⟩ := p
    simp only [risingFrom, Bool.and_eq_true, decide_eq_true_eq] at h
    have hk : k ≠ i := by omega
    simpa [storeRead, hk] using ih h.2 (by omega)

/-- The written address reads what was written. -/
theorem storeRead_write_same {m : CellStore} {low i : Nat} (e : Entry) (h : risingFrom low m = true) :
    storeRead (storeWrite m i e) i = e := by
  induction m generalizing low with
  | nil =>
    by_cases he : e = .free
    · simp [storeWrite, storeRead, he]
    · simp [storeWrite, storeRead, he]
  | cons p rest ih =>
    obtain ⟨k, d⟩ := p
    simp only [risingFrom, Bool.and_eq_true, decide_eq_true_eq] at h
    unfold storeWrite
    split
    · rename_i hik
      split
      · rename_i he
        subst he
        have : k ≠ i := by omega
        simpa [storeRead, this] using storeRead_of_risingFrom h.2 (by omega)
      · simp [storeRead]
    · split
      · rename_i hik
        split
        · rename_i he
          subst he
          exact storeRead_of_risingFrom h.2 (by omega)
        · simp [storeRead]
      · rename_i h1 h2
        have : k ≠ i := fun hk => h2 hk.symm
        simpa [storeRead, this] using ih h.2

/-- Every other address reads as before. -/
theorem storeRead_write_other {m : CellStore} {i j : Nat} (e : Entry) (hij : j ≠ i) :
    storeRead (storeWrite m i e) j = storeRead m j := by
  induction m with
  | nil =>
    by_cases he : e = .free
    · simp [storeWrite, he]
    · simp [storeWrite, storeRead, he, Ne.symm hij]
  | cons p rest ih =>
    obtain ⟨k, d⟩ := p
    unfold storeWrite
    split
    · split
      · rfl
      · simp [storeRead, Ne.symm hij]
    · split
      · rename_i hik
        subst hik
        split
        · simp [storeRead, Ne.symm hij]
        · simp [storeRead, Ne.symm hij]
      · by_cases hkj : k = j
        · simp [storeRead, hkj]
        · simpa [storeRead, hkj] using ih

theorem storeWrite_rising {m : CellStore} {low i : Nat} (e : Entry) (h : risingFrom low m = true) (hi : low ≤ i) :
    risingFrom low (storeWrite m i e) = true := by
  induction m generalizing low with
  | nil =>
    by_cases he : e = .free
    · simp [storeWrite, he, risingFrom]
    · simp [storeWrite, he, risingFrom, hi]
  | cons p rest ih =>
    obtain ⟨k, d⟩ := p
    have h' := h
    simp only [risingFrom, Bool.and_eq_true, decide_eq_true_eq] at h'
    unfold storeWrite
    split
    · split
      · exact h
      · simp [risingFrom, hi, h'.2]; omega
    · split
      · rename_i hik
        subst hik
        split
        · have : risingFrom low rest = true := by
            clear ih h
            cases rest with
            | nil => rfl
            | cons q rest =>
              simp only [risingFrom, Bool.and_eq_true, decide_eq_true_eq] at h' ⊢
              exact ⟨by omega, h'.2.2⟩
          exact this
        · simp [risingFrom, hi, h'.2]
      · simp only [risingFrom, Bool.and_eq_true, decide_eq_true_eq]
        exact ⟨h'.1, ih h'.2 (by omega)⟩

theorem storeWrite_no_free {m : CellStore} {i : Nat} (e : Entry) (h : ∀ p ∈ m, p.2 ≠ Entry.free) :
    ∀ p ∈ storeWrite m i e, p.2 ≠ Entry.free := by
  induction m with
  | nil =>
    by_cases he : e = .free
    · simp [storeWrite, he]
    · simp [storeWrite, he]
  | cons q rest ih =>
    obtain ⟨k, d⟩ := q
    unfold storeWrite
    split
    · split
      · exact h
      · rename_i he
        intro p hp
        rcases List.mem_cons.1 hp with rfl | hp
        · exact he
        · exact h p hp
    · split
      · split
        · exact fun p hp => h p (List.mem_cons_of_mem _ hp)
        · rename_i he
          intro p hp
          rcases List.mem_cons.1 hp with rfl | hp
          · exact he
          · exact h p (List.mem_cons_of_mem _ hp)
      · intro p hp
        rcases List.mem_cons.1 hp with rfl | hp
        · exact h _ (List.mem_cons_self ..)
        · exact ih (fun p hp => h p (List.mem_cons_of_mem _ hp)) p hp

/-- A write keeps the canonical form. -/
theorem storeWf_write {m : CellStore} (i : Nat) (e : Entry) (h : storeWf m = true) : storeWf (storeWrite m i e) = true := by
  simp only [storeWf, Bool.and_eq_true, List.all_eq_true, decide_eq_true_eq] at h ⊢
  exact ⟨storeWrite_rising e h.1 (Nat.zero_le _), storeWrite_no_free e h.2⟩

/-- Writing an entry from the records keeps the canonical form. -/
theorem Guard.reindexCell_wf (g : Guard) (c : Cell) (h : storeWf g.store = true) : storeWf (g.reindexCell c).store = true :=
  storeWf_write _ _ h

/-- Writing entries from the records keeps the canonical form. -/
theorem Guard.reindex_wf (g : Guard) (cells : CellSet) (h : storeWf g.store = true) :
    storeWf (g.reindex cells).store = true := by
  induction cells generalizing g with
  | nil => exact h
  | cons c cs ih => exact ih _ (g.reindexCell_wf c h)

/-- The address of a cell of the store tells it apart from the others (R2). -/
theorem Cell.index_inj {c d : Cell} (hc : c.inStore) (hd : d.inStore) (h : c.index = d.index) : c = d := by
  obtain ⟨c1, c2⟩ := c
  obtain ⟨d1, d2⟩ := d
  simp only [Cell.inStore, Cell.index] at *
  obtain ⟨rfl, rfl⟩ : c1 = d1 ∧ c2 = d2 := by omega
  rfl

/-- A cell's entry after one entry is written from the records. -/
theorem Guard.entryOf_reindexCell (g : Guard) {c d : Cell} (hw : storeWf g.store = true) (hc : c.inStore) (hd : d.inStore) :
    (g.reindexCell c).entryOf d = if c = d then g.derive c else g.entryOf d := by
  unfold Guard.entryOf Guard.reindexCell
  by_cases h : c = d
  · subst h
    simp only [storeWf, Bool.and_eq_true] at hw
    simp [storeRead_write_same _ hw.1]
  · have : d.index ≠ c.index := fun h' => h (Cell.index_inj hc hd h'.symm)
    simp [h, storeRead_write_other _ this]

end Sys2Proof.Machine
end

