-- ==== Sys2Proof/Laws/Change.lean ====
section
/-! SUPPORT. What the shared operations of an event can do to the guard, said once: a relation `Guard.Change` of the few
kinds of change they are made of, the fields it keeps, and one lemma per shared operation. -/

namespace Sys2Proof.Machine

/-- One guard made from another by the changes that an event's shared operations are made of. -/
inductive Guard.Change : Guard → Guard → Prop
  | refl (g : Guard) : Guard.Change g g
  | trans {g h k : Guard} : Guard.Change g h → Guard.Change h k → Guard.Change g k
  | drawn (g : Guard) (fs : List Finding) (n : Nat) : Guard.Change g { g with findings := fs, reads := n }
  | sections (g : Guard) (q : Four SectionState)
      (h : ∀ s, (g.sections.get s).retired = true → (q.get s).retired = true) : Guard.Change g { g with sections := q }
  | index (g : Guard) (c : Cell) : Guard.Change g (g.reindexCell c)
  | claims (g : Guard) (f : Claim → Claim) (h : ∀ c : Claim, c.keeps (f c)) : Guard.Change g { g with claims := g.claims.map f }
  | leave (g : Guard) (p : Claim → Bool) : Guard.Change g { g with claims := g.claims.filter p }
  | poisoned (g : Guard) (cells : CellSet) : Guard.Change g { g with poisoned := cells }
  | arm (g : Guard) (x : Arm) (f : ArmState → ArmState) (h : (g.arm x).keeps (f (g.arm x))) : Guard.Change g (g.onArm x f)
  | granted (g : Guard) (x : Arm) : Guard.Change g { g with lastGranted := x }
  | scrub (g : Guard) (c : ScrubCursor) : Guard.Change g { g with scrub := c }
  | drained (g : Guard) (h : g.mode = .draining) (n : g.hasPlanClaim = false) : Guard.Change g { g with mode := .setup }

/-! ## What every change keeps -/

theorem Guard.Change.cfg {g h : Guard} (c : Guard.Change g h) : h.cfg = g.cfg := by
  induction c with
  | trans _ _ i j => exact j.trans i
  | arm g x f _ => simp
  | _ => rfl

theorem Guard.Change.now {g h : Guard} (c : Guard.Change g h) : h.now = g.now := by
  induction c with
  | trans _ _ i j => exact j.trans i
  | arm g x f _ => simp
  | _ => rfl

theorem Guard.Change.powered {g h : Guard} (c : Guard.Change g h) : h.powered = g.powered := by
  induction c with
  | trans _ _ i j => exact j.trans i
  | arm g x f _ => simp
  | _ => rfl

theorem Guard.Change.permitSupply {g h : Guard} (c : Guard.Change g h) : h.permitSupply = g.permitSupply := by
  induction c with
  | trans _ _ i j => exact j.trans i
  | arm g x f _ => simp
  | _ => rfl

theorem Guard.Change.linesCut {g h : Guard} (c : Guard.Change g h) : h.linesCut = g.linesCut := by
  induction c with
  | trans _ _ i j => exact j.trans i
  | arm g x f _ => simp
  | _ => rfl

theorem Guard.Change.fences {g h : Guard} (c : Guard.Change g h) : h.fences = g.fences := by
  induction c with
  | trans _ _ i j => exact j.trans i
  | arm g x f _ => simp
  | _ => rfl

theorem Guard.Change.leakTimer {g h : Guard} (c : Guard.Change g h) : h.leakTimer = g.leakTimer := by
  induction c with
  | trans _ _ i j => exact j.trans i
  | arm g x f _ => simp
  | _ => rfl

/-- The mode stays, but for the end of DRAINING. -/
theorem Guard.Change.mode {g h : Guard} (c : Guard.Change g h) :
    h.mode = g.mode ∨ (g.mode = .draining ∧ h.mode = .setup) := by
  induction c with
  | trans _ _ i j => 
    rcases i with i | i <;> rcases j with j | j <;> simp_all
  | arm g x f _ => simp
  | drained g h _ => exact .inr ⟨h, rfl⟩
  | _ => exact .inl rfl

/-- The canonical form of the cell store. -/
theorem Guard.Change.storeWf {g h : Guard} (c : Guard.Change g h) (w : storeWf g.store = true) :
    storeWf h.store = true := by
  induction c with
  | trans _ _ i j => exact j (i w)
  | arm g x f _ => simpa using w
  | index g c => exact g.reindexCell_wf c w
  | _ => exact w

theorem Guard.keys_map (cs : List Claim) (f : Claim → Claim) (h : ∀ c : Claim, c.keeps (f c)) :
    (cs.map f).map Claim.key = cs.map Claim.key := by
  rw [List.map_map]
  exact List.map_congr_left fun c _ => (h c).1

/-- No claim enters the table, and the claims keep their order. -/
theorem Guard.Change.keys {g h : Guard} (c : Guard.Change g h) : h.keys.Sublist g.keys := by
  induction c with
  | trans _ _ i j => exact j.trans i
  | arm g x f _ => simp [Guard.keys]
  | claims g f k =>
    change ((g.claims.map f).map Claim.key).Sublist _
    rw [Guard.keys_map g.claims f k]
    exact List.Sublist.refl _
  | leave g p => exact List.Sublist.map _ List.filter_sublist
  | _ => exact List.Sublist.refl _

theorem Claim.keeps_refl (c : Claim) : c.keeps c := ⟨rfl, rfl, rfl, rfl, rfl, rfl, id⟩

theorem Claim.keeps_trans {c d e : Claim} (h : c.keeps d) (k : d.keeps e) : c.keeps e := by
  obtain ⟨h1, h2, h3, h4, h5, h6, h7⟩ := h
  obtain ⟨k1, k2, k3, k4, k5, k6, k7⟩ := k
  exact ⟨k1.trans h1, k2.trans h2, k3.trans h3, k4.trans h4, k5.trans h5, k6.trans h6, k7 ∘ h7⟩

/-- Every claim in the table after was a claim in the table before, of the same name, origin, shape and priority. -/
theorem Guard.Change.claim {g h : Guard} (c : Guard.Change g h) : ∀ d ∈ h.claims, ∃ e ∈ g.claims, e.keeps d := by
  induction c with
  | trans _ _ i j =>
    intro d hd
    obtain ⟨e, he, k⟩ := j d hd
    obtain ⟨b, hb, l⟩ := i e he
    exact ⟨b, hb, Claim.keeps_trans l k⟩
  | claims g f k =>
    intro d hd
    obtain ⟨e, he, rfl⟩ := List.mem_map.1 hd
    exact ⟨e, he, k e⟩
  | leave g p => exact fun d hd => ⟨d, (List.mem_filter.1 hd).1, d.keeps_refl⟩
  | arm g x f _ =>
    intro d hd
    rw [Guard.onArm_claims] at hd
    exact ⟨d, hd, d.keeps_refl⟩
  | _ => exact fun d hd => ⟨d, hd, d.keeps_refl⟩

theorem Plan.sameCourse_refl (p : Plan) : p.sameCourse p := ⟨rfl, rfl, rfl, rfl, rfl, rfl, rfl⟩

theorem Plan.sameCourse_trans {p q r : Plan} (h : p.sameCourse q) (k : q.sameCourse r) : p.sameCourse r := by
  obtain ⟨h1, h2, h3, h4, h5, h6, h7⟩ := h
  obtain ⟨k1, k2, k3, k4, k5, k6, k7⟩ := k
  exact ⟨k1.trans h1, k2.trans h2, k3.trans h3, k4.trans h4, k5.trans h5, k6.trans h6, k7.trans h7⟩

theorem Slot.follows_refl (s : Slot) : s.follows s := by
  cases s
  · trivial
  · exact Plan.sameCourse_refl _
  · exact Plan.sameCourse_refl _
  · exact Plan.sameCourse_refl _

theorem Slot.follows_trans {a b c : Slot} (h : a.follows b) (k : b.follows c) : a.follows c := by
  cases a <;> cases b <;> cases c <;> first
    | exact Plan.sameCourse_trans h k
    | trivial

theorem Slot.follows_onPlan (s : Slot) (f : Plan → Plan) (h : ∀ p : Plan, p.sameCourse (f p)) :
    s.follows (s.onPlan f) := by
  cases s
  · trivial
  · exact h _
  · exact h _
  · exact h _

/-- A change of an arm that leaves alone what `ArmState.keeps` names. -/
theorem ArmState.keeps_of {a b : ArmState} (h1 : b.intake = a.intake) (h2 : b.calculator = a.calculator)
    (h3 : b.verdict = a.verdict) (h4 : b.nextNumber = a.nextNumber) (h5 : b.unit.sources = a.unit.sources)
    (h6 : b.slot0 = a.slot0) (h7 : b.slot1 = a.slot1) : a.keeps b :=
  ⟨h1, h2, h3, h4, by rw [h5], by rw [h5]; exact id, h6 ▸ Slot.follows_refl _, h7 ▸ Slot.follows_refl _⟩

theorem ArmState.keeps_refl (a : ArmState) : a.keeps a := ArmState.keeps_of rfl rfl rfl rfl rfl rfl rfl

theorem ArmState.keeps_trans {a b c : ArmState} (h : a.keeps b) (k : b.keeps c) : a.keeps c := by
  obtain ⟨h1, h2, h3, h4, h5, h6, h7, h8⟩ := h
  obtain ⟨k1, k2, k3, k4, k5, k6, k7, k8⟩ := k
  exact ⟨k1.trans h1, k2.trans h2, k3.trans h3, k4.trans h4, by rw [k5, h5], k6 ∘ h6, Slot.follows_trans h7 k7,
    Slot.follows_trans h8 k8⟩

/-- What both arms keep. -/
theorem Guard.Change.armKeeps {g h : Guard} (c : Guard.Change g h) (x : Arm) : (g.arm x).keeps (h.arm x) := by
  induction c with
  | trans _ _ i j => exact ArmState.keeps_trans i j
  | arm g y f k =>
    rw [Guard.arm_onArm_eq]
    split
    · rename_i hxy; subst hxy; exact k
    · exact ArmState.keeps_refl _
  | _ => exact ArmState.keeps_refl _

/-- A retired section stays retired. -/
theorem Guard.Change.retired {g h : Guard} (c : Guard.Change g h) (s : Nat) :
    g.isRetired s = true → h.isRetired s = true := by
  induction c with
  | trans _ _ i j => exact j ∘ i
  | sections g q k => exact k s
  | arm g x f _ => simp [Guard.isRetired]
  | _ => exact id

/-! ## Changes made of changes -/

theorem Guard.Change.reindex (g : Guard) (cells : CellSet) : Guard.Change g (g.reindex cells) := by
  induction cells generalizing g with
  | nil => exact .refl g
  | cons c cs ih => exact .trans (.index g c) (ih _)

theorem Guard.Change.onClaim (g : Guard) (k : ClaimKey) (f : Claim → Claim) (h : ∀ c : Claim, c.keeps (f c)) :
    Guard.Change g (g.onClaim k f) :=
  .claims g _ fun c => by
    split
    · exact h c
    · exact c.keeps_refl

theorem Guard.Change.removeClaim (g : Guard) (k : ClaimKey) : Guard.Change g (g.removeClaim k) := .leave g _

theorem Guard.Change.promote (g : Guard) (x : Arm) : Guard.Change g (g.promote x) :=
  .claims g _ fun c => by
    split
    · exact ⟨rfl, rfl, rfl, rfl, rfl, rfl, id⟩
    · exact c.keeps_refl

theorem Guard.Change.succeed (g : Guard) (c : Claim) : Guard.Change g (g.succeed c) := by
  unfold Guard.succeed
  split
  · exact .promote g _
  · exact .refl g

/-- A change of an arm that touches none of what `ArmState.keeps` names. -/
theorem Guard.Change.armKept (g : Guard) (x : Arm) (f : ArmState → ArmState) (h : ∀ a : ArmState, a.keeps (f a)) :
    Guard.Change g (g.onArm x f) := .arm g x f (h _)

theorem Guard.Change.onVacate (g : Guard) (x : Arm) (f : CellSet → CellSet) : Guard.Change g (g.onVacate x f) :=
  .armKept g x _ fun _ => ArmState.keeps_of rfl rfl rfl rfl rfl rfl rfl

theorem Guard.Change.signal (g : Guard) (x : Arm) (e : CountEvent) (n : Nat) : Guard.Change g (g.signal x e n) :=
  .armKept g x _ fun _ => ArmState.keeps_of rfl rfl rfl rfl rfl rfl rfl

/-- A change of sections that keeps every retirement. -/
theorem Guard.Change.onSection (g : Guard) (s : Nat) (f : SectionState → SectionState)
    (h : ∀ t, t.retired = true → (f t).retired = true) : Guard.Change g (g.onSection s f) := by
  refine .sections g _ fun t ht => ?_
  unfold Four.upd
  match s, t with
  | 0, 0 => exact h _ ht
  | 0, 1 => exact ht
  | 0, 2 => exact ht
  | 0, n + 3 => exact ht
  | 1, 0 => exact ht
  | 1, 1 => exact h _ ht
  | 1, 2 => exact ht
  | 1, n + 3 => exact ht
  | 2, 0 => exact ht
  | 2, 1 => exact ht
  | 2, 2 => exact h _ ht
  | 2, n + 3 => exact ht
  | m + 3, 0 => exact ht
  | m + 3, 1 => exact ht
  | m + 3, 2 => exact ht
  | m + 3, n + 3 => exact h _ ht

/-- A change of one slot that follows what it was. -/
theorem Guard.Change.setSlot (g : Guard) (x : Arm) (f : ArmState → ArmState)
    (h : ∃ i s, f (g.arm x) = (g.arm x).setSlot i s ∧ ((g.arm x).slot i).follows s) : Guard.Change g (g.onArm x f) := by
  obtain ⟨i, s, e, k⟩ := h
  refine .arm g x f ?_
  rw [e]
  cases i
  · exact ⟨rfl, rfl, rfl, rfl, rfl, id, k, Slot.follows_refl _⟩
  · exact ⟨rfl, rfl, rfl, rfl, rfl, id, Slot.follows_refl _, k⟩

/-! ## The claim operations -/

theorem Event.tally_change (ev : Event) (x : Arm) (i : SlotIx) (o : EntryOutcome) :
    Guard.Change ev.guard (ev.tally x i o).guard :=
  .trans (.setSlot ev.guard x _ ⟨i, _, rfl, Slot.follows_onPlan _ _ fun p => by cases o <;> exact p.sameCourse_refl⟩)
    (.signal _ x _ 1)

theorem Event.settleEntry_change (ev : Event) (c : Claim) (o : EntryOutcome) :
    Guard.Change ev.guard (ev.settleEntry c o).guard := by
  unfold Event.settleEntry
  split
  · exact .refl _
  · exact ev.tally_change _ _ _

theorem Event.leaveWaiting_change (ev : Event) (c : Claim) (n : ArmNotice) :
    Guard.Change ev.guard (ev.leaveWaiting c n).guard :=
  .trans (.trans (.trans (.removeClaim _ c.key) (.succeed _ c)) (.reindex _ c.reserved))
    (Event.settleEntry_change ((ev.onGuard fun g => ((g.removeClaim c.key).succeed c).reindex c.reserved).post
      (.toArm c.arm n)) c .missed)

theorem Event.withdraw_change (ev : Event) (c : Claim) : Guard.Change ev.guard (ev.withdraw c).guard :=
  ev.leaveWaiting_change c _

theorem Event.bounce_change (ev : Event) (c : Claim) (why : BounceReason) : Guard.Change ev.guard (ev.bounce c why).guard :=
  ev.leaveWaiting_change c _

/-- A fold of operations that are each a change. -/
theorem Event.foldl_change {α : Type} (f : Event → α → Event) (h : ∀ ev a, Guard.Change ev.guard (f ev a).guard)
    (as : List α) (ev : Event) : Guard.Change ev.guard (as.foldl f ev).guard := by
  induction as generalizing ev with
  | nil => exact .refl _
  | cons a as ih => exact .trans (h ev a) (ih _)

theorem Event.withdrawAll_change (ev : Event) (p : Claim → Bool) : Guard.Change ev.guard (ev.withdrawAll p).guard := by
  refine Event.foldl_change _ (fun ev k => ?_) _ ev
  split
  · exact ev.withdraw_change _
  · exact .refl _

/-! ## Reads -/

theorem Guard.drawFinding_change (g : Guard) : Guard.Change g g.drawFinding.2 := by
  unfold Guard.drawFinding
  split
  · exact .drawn g _ _
  · exact .drawn g _ _

theorem Event.rise_change (ev : Event) (s n : Nat) : Guard.Change ev.guard (ev.rise s n).guard := by
  unfold Event.rise
  split
  · dsimp only
    split <;> exact .onSection _ _ _ fun _ => id
  · exact .refl _

theorem Guard.Change.poisonCell (g : Guard) (c : Cell) : Guard.Change g (g.poisonCell c) := by
  have h1 : Guard.Change g { g with poisoned := addCell c g.poisoned } := .poisoned g _
  have h2 := Guard.Change.claims { g with poisoned := addCell c g.poisoned } (fun k => { k with
      effective := if k.isHeld then dropCell k.effective c else k.effective
      reserved := dropCell k.reserved c }) fun _ => ⟨rfl, rfl, rfl, rfl, rfl, rfl, id⟩
  have h3 := fun g : Guard => Guard.Change.onVacate g .A fun v => dropCell v c
  have h4 := fun g : Guard => Guard.Change.onVacate g .B fun v => dropCell v c
  have h5 := fun g : Guard => Guard.Change.onSection g c.sec
    (fun t => { t with poisonings := sat32 (t.poisonings + 1) }) fun _ => id
  exact .trans (.trans (.trans (.trans h1 h2) (h3 _)) (h4 _)) (.trans (h5 _) (.index _ c))

theorem Event.poison_change (ev : Event) (c : Cell) : Guard.Change ev.guard (ev.poison c).guard := .poisonCell _ c

theorem Event.uncorrectable_change (ev : Event) (c : Cell) : Guard.Change ev.guard (ev.uncorrectable c).guard :=
  .trans (.trans (.index _ c) (Event.rise_change (ev.onGuard fun g => g.reindexCell c) c.sec 4))
    (.onSection _ _ _ fun _ => id)

theorem Event.postRead_guard (ev : Event) (n : Notice) : (ev.postRead n).guard = ev.guard := by
  unfold Event.postRead
  split <;> rfl

theorem Event.readRaw_change (ev : Event) (who : Reader) (c : Cell) : Guard.Change ev.guard (ev.readRaw who c).1.guard := by
  unfold Event.readRaw
  split
  · exact .refl _
  · dsimp only
    refine .trans ev.guard.drawFinding_change ?_
    split
    · exact .refl _
    · exact .trans (Event.rise_change { ev with guard := ev.guard.drawFinding.2 } c.sec 1) (.onSection _ _ _ fun _ => id)
    · rw [Event.postRead_guard]
      exact Event.uncorrectable_change { ev with guard := ev.guard.drawFinding.2 } c
    · rw [Event.postRead_guard]
      refine .trans (Event.uncorrectable_change { ev with guard := ev.guard.drawFinding.2 } c) ?_
      refine Guard.Change.trans ?_ (Event.poison_change _ c)
      rw [Event.postRead_guard]
      exact .refl _

theorem Event.formRaw_change (ev : Event) (cells : CellSet) : Guard.Change ev.guard (ev.formRaw cells).1.guard := by
  induction cells generalizing ev with
  | nil => exact .refl _
  | cons c cs ih => exact .trans (ev.readRaw_change .arbiter c) (ih _)

theorem Guard.Change.refit (g : Guard) (k : ClaimKey) (old kept : CellSet) (count : Nat) :
    Guard.Change g (g.refit k old kept count) := by
  refine .trans ?_ (.reindex _ _)
  exact .onClaim g k _ fun _ => ⟨rfl, rfl, rfl, rfl, rfl, rfl, id⟩

theorem Event.reform_change (ev : Event) (k : ClaimKey) : Guard.Change ev.guard (ev.reform k).guard := by
  unfold Event.reform
  split
  · exact .refl _
  · dsimp only
    have h : ∀ (cells : CellSet) (kept old : CellSet) (n : Nat),
        Guard.Change ev.guard ((ev.formRaw cells).1.guard.refit k old kept n) :=
      fun cells kept old n => .trans (ev.formRaw_change cells) (.refit _ k old kept n)
    split
    · split
      · refine .trans ?_ (Event.bounce_change _ _ _)
        exact h _ _ _ _
      · exact h _ _ _ _
    · exact h _ _ _ _

theorem Event.settleRounds_change (n : Nat) (ev : Event) : Guard.Change ev.guard (ev.settleRounds n).guard := by
  induction n generalizing ev with
  | zero => exact .refl _
  | succ n ih =>
    unfold Event.settleRounds
    split
    · exact .refl _
    · exact .trans (Event.foldl_change Event.reform Event.reform_change _ { ev with touched := [] }) (ih _)

theorem Event.settle_change (ev : Event) : Guard.Change ev.guard ev.settle.guard := ev.settleRounds_change 769

theorem Event.readCell_change (ev : Event) (who : Reader) (c : Cell) :
    Guard.Change ev.guard (ev.readCell who c).1.guard :=
  .trans (ev.readRaw_change who c) (Event.settle_change _)

theorem Event.readCells_change (ev : Event) (who : Reader) (cells : CellSet) :
    Guard.Change ev.guard (ev.readCells who cells).1.guard := by
  induction cells generalizing ev with
  | nil => exact .refl _
  | cons c cs ih => exact .trans (ev.readCell_change who c) (ih _)

theorem Event.form_change (ev : Event) (cells : CellSet) : Guard.Change ev.guard (ev.form cells).1.guard :=
  ev.readCells_change .arbiter cells

theorem Event.rewrite_change (ev : Event) (c : Cell) : Guard.Change ev.guard (ev.rewrite c).1.guard :=
  .trans (.index _ c) (Guard.drawFinding_change _)

theorem Event.rewriteAll_change (ev : Event) (cause : PoisonCause) (cells : CellSet) :
    Guard.Change ev.guard (ev.rewriteAll cause cells).guard := by
  refine Event.foldl_change _ (fun ev c => ?_) cells ev
  dsimp only
  refine .trans (ev.rewrite_change c) ?_
  split
  · exact .refl _
  · exact .trans (Event.poison_change _ c) (Event.settle_change _)

/-! ## The evaluation -/

theorem Event.testCells_change (ev : Event) (x : Arm) (ok : Bool) (cells : CellSet) :
    Guard.Change ev.guard (ev.testCells x ok cells).1.guard := by
  induction cells generalizing ev ok with
  | nil => exact .refl _
  | cons c cs ih =>
    unfold Event.testCells
    dsimp only
    split
    · exact ev.readCell_change _ _
    · exact .trans (ev.readCell_change _ _) (ih _ _)

theorem Event.testClaim_change (n : Nat) (ev : Event) (k : ClaimKey) :
    Guard.Change ev.guard (ev.testClaim n k).1.guard := by
  induction n generalizing ev with
  | zero => exact .refl _
  | succ n ih =>
    unfold Event.testClaim
    split
    · exact .refl _
    · rename_i c _
      have h := ev.testCells_change c.arm true c.effective
      split
      · rename_i e
        rw [e] at h
        split
        · exact h
        · exact .trans h (ih _)
      · rename_i e; rw [e] at h; exact .trans h (ih _)

theorem Guard.Change.grant (g : Guard) (c : Claim) : Guard.Change g (g.grant c) :=
  .trans (.trans (.trans (.trans (.onClaim g c.key Claim.granted fun _ => ⟨rfl, rfl, rfl, rfl, rfl, rfl, fun _ => rfl⟩)
    (.onVacate _ c.arm fun v => minusCells v c.effective)) (.succeed _ c)) (.granted _ c.arm)) (.reindex _ _)

theorem Event.grant_change (ev : Event) (c : Claim) : Guard.Change ev.guard (ev.grant c).guard :=
  .trans (.trans (.grant _ c) (.signal _ _ _ _)) (.signal _ _ _ _)

theorem Guard.Change.reserve (g : Guard) (c : Claim) : Guard.Change g (g.reserve c) := by
  refine .trans ?_ (.reindex _ _)
  exact .onClaim g c.key _ fun _ => ⟨rfl, rfl, rfl, rfl, rfl, rfl, id⟩

theorem Event.takeCandidate_change (ev : Event) (k : ClaimKey) : Guard.Change ev.guard (ev.takeCandidate k).guard := by
  unfold Event.takeCandidate
  refine .trans (ev.testClaim_change 769 k) ?_
  dsimp only
  split
  · exact .refl _
  · split
    · exact Event.grant_change _ _
    · split
      · exact Guard.Change.reserve _ _
      · exact .refl _

theorem Event.evaluateRounds_change (n : Nat) (ev : Event) (taken : List ClaimKey) :
    Guard.Change ev.guard (ev.evaluateRounds n taken).guard := by
  induction n generalizing ev taken with
  | zero => exact .refl _
  | succ n ih =>
    unfold Event.evaluateRounds
    split
    · exact .refl _
    · exact .trans (Event.takeCandidate_change { ev with reformed := [] } _) (ih _ _)

theorem Event.runEvaluation_change (ev : Event) : Guard.Change ev.guard ev.runEvaluation.guard := by
  unfold Event.runEvaluation
  split
  · exact .refl _
  · exact ev.evaluateRounds_change 4000 []

theorem Event.evaluateIfCalled_change (ev : Event) : Guard.Change ev.guard ev.evaluateIfCalled.guard := by
  unfold Event.evaluateIfCalled
  split
  · exact ev.runEvaluation_change
  · exact .refl _

/-! ## The action unit -/

/-- REVOKED is the one source that the shared operations raise. -/
theorem Event.raiseRevoked_change (ev : Event) (x : Arm) : Guard.Change ev.guard (ev.raise x .revoked).guard := by
  unfold Event.raise
  split
  · exact .refl _
  · change Guard.Change ev.guard (ev.guard.onArm x fun a =>
      { a with unit := { a.unit with sources := { a.unit.sources with revoked := true } } })
    exact .armKept _ x _ fun _ => ⟨rfl, rfl, rfl, rfl, rfl, fun _ => rfl, Slot.follows_refl _, Slot.follows_refl _⟩

theorem Guard.Change.followLines (g : Guard) (x : Arm) : Guard.Change g (g.followLines x) := by
  unfold Guard.followLines Guard.onUnit
  exact .armKept g x _ fun _ => ArmState.keeps_of rfl rfl rfl rfl rfl rfl rfl

theorem Guard.Change.changeLevel (g : Guard) (x : Arm) (l : Level) : Guard.Change g (g.changeLevel x l) := by
  refine .trans ?_ (.followLines _ x)
  unfold Guard.onUnit
  exact .armKept g x _ fun _ => ArmState.keeps_of rfl rfl rfl rfl rfl rfl rfl

theorem Event.computeLevel_change (ev : Event) (x : Arm) : Guard.Change ev.guard (ev.computeLevel x).guard := by
  unfold Event.computeLevel
  dsimp only
  split
  · exact .refl _
  · split
    · refine .trans ?_ (Event.withdrawAll_change _ _)
      exact .changeLevel _ x _
    · exact .changeLevel _ x _

theorem Event.postFaults_guard (ev : Event) : ev.postFaults.guard = ev.guard := by
  unfold Event.postFaults
  generalize ev.changes = cs
  have h : ∀ (cs : List SourceChange) (e : Event), (cs.foldl (fun ev ch =>
      let c := ev.guard.cfg.arm ch.arm
      let u := (ev.guard.arm ch.arm).unit
      if c.notify.of ch.source then
        ev.post (.toHost (.fault ch.arm ch.source ch.change (sourceAction c u.sources ch.source) u.level))
      else ev) e).guard = e.guard := by
    intro cs
    induction cs with
    | nil => exact fun _ => rfl
    | cons c cs ih =>
      intro e
      rw [List.foldl_cons, ih]
      dsimp only
      split <;> rfl
  exact h cs _

theorem Event.settleLevel_change (ev : Event) (x : Arm) : Guard.Change ev.guard (ev.settleLevel x).guard := by
  unfold Event.settleLevel
  rw [Event.postFaults_guard]
  exact ev.computeLevel_change x

theorem Event.latchRevoked_change (ev : Event) (named : Arm → Bool) :
    Guard.Change ev.guard (ev.latchRevoked named).guard := by
  have h : ∀ (e : Event) (x : Arm), Guard.Change e.guard
      (if named x && (e.guard.arm x).calculator.zone = .inside then e.raise x .revoked else e).guard := by
    intro e x
    split
    · exact e.raiseRevoked_change x
    · exact .refl _
  unfold Event.latchRevoked
  rw [Event.postFaults_guard]
  exact .trans (.trans (.trans (h ev .A) (h _ .B)) (Event.computeLevel_change _ .A)) (Event.computeLevel_change _ .B)

/-! ## The handover -/

theorem Event.letGo_change (ev : Event) (cells : CellSet) : Guard.Change ev.guard (ev.letGo cells).guard := .reindex _ _

theorem Event.endHeld_change (ev : Event) (k : ClaimKey) (o : EntryOutcome) :
    Guard.Change ev.guard (ev.endHeld k o).guard := by
  unfold Event.endHeld
  split
  · exact .refl _
  · dsimp only
    rename_i c _
    refine .trans (ev.readCells_change .handover (ev.guard.ownCellsOf c)) ?_
    split
    · exact .refl _
    · rename_i d _
      have h : ∀ e : Event, Guard.Change e.guard ((e.onGuard fun g => g.removeClaim k).settleEntry d o).guard :=
        fun e => .trans (.removeClaim _ k) (Event.settleEntry_change (e.onGuard fun g => g.removeClaim k) _ _)
      split
      · exact .trans (h _) (Event.letGo_change _ _)
      · refine .trans (h _) (.trans ?_ (.reindex _ _))
        exact .onVacate _ _ _

theorem Event.complete_change (ev : Event) (x : Arm) : Guard.Change ev.guard (ev.complete x).guard :=
  Event.foldl_change _ (fun ev k => ev.endHeld_change k _) _ ev

theorem Event.vacateProgress_change (ev : Event) (x : Arm) : Guard.Change ev.guard (ev.vacateProgress x).guard :=
  .trans (ev.readCells_change _ _) (.trans (.onVacate _ x _) (Event.letGo_change (Event.onGuard _ fun g => g.onVacate x _) _))

theorem Event.revoke_change (ev : Event) (c : Claim) : Guard.Change ev.guard (ev.revoke c).guard :=
  Event.endHeld_change (ev.post _) c.key .missed

theorem Event.endClaims_change (ev : Event) (ks : List ClaimKey) : Guard.Change ev.guard (ev.endClaims ks).1.guard := by
  induction ks generalizing ev with
  | nil => exact .refl _
  | cons k ks ih =>
    unfold Event.endClaims
    split
    · exact ih ev
    · split
      · exact .trans (ev.revoke_change _) (ih _)
      · exact .trans (ev.withdraw_change _) (ih _)

/-! ## Retirement, flush, and the end of an event -/

theorem Guard.Change.restartScrub (g : Guard) : Guard.Change g g.restartScrub := .scrub g _

theorem Guard.Change.retireSection (g : Guard) (s : Nat) : Guard.Change g (g.retireSection s) :=
  .trans (.trans (.onSection g s (fun t => { t with retired := true, errors := 0 }) fun _ _ => rfl)
    (.claims _ (fun c => { c with reserved := c.reserved.filter fun d => d.sec ≠ s })
      fun _ => ⟨rfl, rfl, rfl, rfl, rfl, rfl, id⟩)) (.reindex _ _)

theorem Event.retire_change (ev : Event) (s : Nat) : Guard.Change ev.guard (ev.retire s).guard := by
  unfold Event.retire
  dsimp only
  refine .trans ?_ (Event.runEvaluation_change _)
  simp only [Event.onGuard_guard, Event.post_guard]
  refine .trans ?_ (.restartScrub _)
  refine .trans ?_ (Event.settle_change _)
  dsimp only
  refine .trans ?_ (Event.latchRevoked_change _ _)
  refine .trans ?_ (Event.endClaims_change _ _)
  dsimp only [Event.onGuard_guard]
  refine .trans ?_ (.retireSection _ s)
  exact ev.readCells_change _ _

theorem Event.flush_change (ev : Event) (s : Nat) : Guard.Change ev.guard (ev.flush s).guard := by
  unfold Event.flush
  dsimp only
  refine .trans ?_ (Event.runEvaluation_change _)
  simp only [Event.onGuard_guard, Event.post_guard]
  refine .trans ?_ (.onSection _ s (fun t => { t with errors := 0 }) fun _ => id)
  refine .trans ?_ (Event.rewriteAll_change _ _ _)
  simp only [Event.onGuard_guard]
  refine .trans ?_ (.reindex _ _)
  refine .trans ?_ (Event.latchRevoked_change _ _)
  exact ev.endClaims_change _

theorem Event.dealWithSections_change (n : Nat) (ev : Event) : Guard.Change ev.guard (ev.dealWithSections n).guard := by
  induction n generalizing ev with
  | zero => exact .refl _
  | succ n ih =>
    unfold Event.dealWithSections
    split
    · exact .refl _
    · refine .trans ?_ (ih _)
      split
      · exact .refl _
      · split
        · exact ev.retire_change _
        · exact ev.flush_change _

theorem Event.endPlan_change (ev : Event) (x : Arm) (i : SlotIx) : Guard.Change ev.guard (ev.endPlan x i).guard := by
  unfold Event.endPlan
  split
  · rename_i p h
    split
    · exact .refl _
    · exact .setSlot ev.guard x (fun a => a.setSlot i .empty) ⟨i, .empty, rfl, by rw [h]; trivial⟩
  · exact .refl _

theorem Event.endPlans_change (ev : Event) : Guard.Change ev.guard ev.endPlans.guard := by
  unfold Event.endPlans
  exact Event.foldl_change (fun ev (j : Arm × SlotIx) => ev.endPlan j.1 j.2) (fun ev j => ev.endPlan_change j.1 j.2) _ { ev with judged := [] }

theorem Event.endDraining_change (ev : Event) : Guard.Change ev.guard ev.endDraining.guard := by
  unfold Event.endDraining
  split
  · rename_i h
    exact .drained _ h.1 (by simpa using h.2.2)
  · exact .refl _

theorem Guard.Change.scrubPasses {g h : Guard} (c : Guard.Change g h) : h.scrubPasses = g.scrubPasses := by
  induction c with
  | trans _ _ i j => exact j.trans i
  | arm g x f _ => simp
  | _ => rfl

/-- Everything at once. -/
theorem Guard.Change.followedBy {g h : Guard} (c : Guard.Change g h) : g.followedBy h :=
  ⟨c.cfg, c.now, c.powered, c.permitSupply, c.linesCut, c.fences, c.leakTimer, c.scrubPasses, c.mode, c.armKeeps, c.claim, c.retired⟩

/-- The end of an event changes the guard by the shared operations' changes alone. -/
theorem Event.finish_change (ev : Event) : Guard.Change ev.guard ev.finish.guard :=
  .trans (.trans (.trans ev.evaluateIfCalled_change (Event.dealWithSections_change 8 ev.evaluateIfCalled.afterReply))
    (Event.endPlans_change _)) (Event.endDraining_change _)

/-- What an event leaves in the state. -/
theorem State.conclude_guard (s : State) (ev : Event) : (s.conclude ev).guard = ev.finish.guard := rfl

theorem State.conclude_pending (s : State) (ev : Event) : (s.conclude ev).pending = s.pending := rfl

end Sys2Proof.Machine
end

