-- ==== Sys2Proof/Laws/Scrub.lean ====
section
/-! SUPPORT. The scrub cursor: what moves it keeps it in its visit list, and a cursor in its list names a cell of the
grid. -/

namespace Sys2Proof.Machine

@[simp] theorem Guard.restartScrub_scrubLength (g : Guard) : g.restartScrub.scrubLength = g.scrubLength := rfl

@[simp] theorem Guard.advanceScrub_scrubLength (g : Guard) : g.advanceScrub.scrubLength = g.scrubLength := by
  unfold Guard.advanceScrub
  split <;> rfl

theorem Guard.restartScrub_cursorInList {g : Guard} (h : 0 < g.scrubLength) : g.restartScrub.cursorInList := h

theorem Guard.advanceScrub_cursorInList {g : Guard} (h : g.cursorInList) : g.advanceScrub.cursorInList := by
  unfold Guard.cursorInList
  rw [g.advanceScrub_scrubLength]
  unfold Guard.advanceScrub
  split
  · assumption
  · exact Nat.zero_lt_of_lt h

theorem Guard.scrubCell_inGrid {g : Guard} (h : g.cursorInList) : g.cfg.inGrid (g.scrubCell g.scrub.pos) = true := by
  have hl : 0 < g.scrubColumns.length := Nat.pos_of_ne_zero fun e => absurd h (by simp [Guard.cursorInList, Guard.scrubLength, e])
  have hr : g.scrub.pos / g.scrubColumns.length < g.cfg.nr := (Nat.div_lt_iff_lt_mul hl).2 h
  have hm := Nat.mod_lt g.scrub.pos hl
  have hc : g.scrubColumns.getD (g.scrub.pos % g.scrubColumns.length) 0 < g.cfg.nc := by
    have hin : g.scrubColumns.getD (g.scrub.pos % g.scrubColumns.length) 0 ∈ g.scrubColumns := by
      simp [List.getD_eq_getElem?_getD, List.getElem?_eq_getElem hm]
    exact List.mem_range.1 (List.mem_filter.1 hin).1
  exact Bool.and_eq_true_iff.2 ⟨decide_eq_true hc, decide_eq_true hr⟩

end Sys2Proof.Machine
end

