-- ==== Sys2Proof/Laws/Service.lean ====
section
/-! SUPPORT. What a request that is served at once comes to, the end of an event with nothing left to do, reads that find
every entry good, and the entries of a LOAD_PLAN. -/

namespace Sys2Proof.Machine

/-! ## Power -/

theorem State.whenPowered_on {s : State} (h : s.guard.powered = true) (f : State → State) :
    s.whenPowered f = .next (f s) := by
  unfold State.whenPowered
  rw [if_pos h]

theorem State.whenPowered_off {s : State} (h : s.guard.powered = false) (f : State → State) :
    s.whenPowered f = .next s := by
  unfold State.whenPowered
  rw [if_neg (by simp [h])]

/-! ## The end of an event -/

theorem Event.settle_untouched {ev : Event} (h : ev.touched = []) : ev.settle = ev := by
  unfold Event.settle Event.settleRounds
  simp [h]

theorem Event.dealWithSections_none (n : Nat) {ev : Event} (h : ev.reached = []) : ev.dealWithSections n = ev := by
  cases n <;> simp [Event.dealWithSections, h]

theorem Event.endPlans_none {ev : Event} (h : ev.judged = []) : ev.endPlans = ev := by
  cases ev
  simp_all [Event.endPlans, keepLast]

theorem Event.endDraining_kept {ev : Event} (h : ev.planLeft = false) : ev.endDraining = ev := by
  simp [Event.endDraining, h]

/-- An event that calls for nothing ends with its notices in order. -/
theorem Event.finish_quiet {ev : Event} (h1 : ev.evaluate = false) (h2 : ev.reached = []) (h3 : ev.judged = [])
    (h4 : ev.planLeft = false) : ev.finish = ev.afterReply := by
  unfold Event.finish Event.evaluateIfCalled
  rw [if_neg (by simp [h1]), Event.dealWithSections_none 8 (ev := ev.afterReply) h2, Event.endPlans_none (ev := ev.afterReply) h3,
    Event.endDraining_kept (ev := ev.afterReply) h4]

/-- A change of the guard with nothing to follow. -/
theorem State.conclude_event (s : State) (g : Guard) : s.conclude g.event = { s with guard := g } := by
  unfold State.conclude
  rw [Event.finish_quiet rfl rfl rfl rfl]
  rfl

/-! ## Requests served at once -/

theorem Guard.serve_rx (g : Guard) (s : State) (r : Receiver) (kind : Byte) (p : List Byte) :
    g.serve (s.onSup fun k => { k with port := { k.port with rx := r } }).link kind p = g.serve s.link kind p := rfl

/-- A supervisor request that arrives at an idle port is served, and its reply placed, at once. -/
theorem State.supervisorArrival_served {s : State} (h : s.servesHost) (kind tag : Byte) (p : List Byte)
    (hk : isSupervisorKind kind = true) :
    s.supervisorArrival ⟨kind, tag, p⟩ =
      (s.replied kind tag (s.guard.serve s.link kind p).2).conclude (s.guard.serve s.link kind p).1 := by
  obtain ⟨⟨_, hm⟩, hi⟩ := h
  have hq : s.link.sup.queue = [] := by
    have := hi
    unfold SupervisorLink.isIdle at this
    simp only [Bool.and_eq_true] at this
    exact List.isEmpty_iff.1 this.1.2
  have hi' : (s.onSup fun k => { k with port := { k.port with rx := .hunt } }).link.sup.isIdle = true := hi
  have hm' : ¬(s.onSup fun k => { k with port := { k.port with rx := .hunt } }).guard.mode = .init := hm
  unfold State.supervisorArrival
  dsimp only
  rw [if_neg (by simp [hk]), if_neg hm', if_neg (by change ¬requestCapacity ≤ s.link.sup.queue.length; simp [hq, requestCapacity]),
    if_pos hi']
  unfold State.serveSupervisor
  dsimp only
  rw [Guard.serve_rx]
  rfl

/-- An arm's request that finds room for its reply is served, and answered, at once. -/
theorem State.armArrival_served {s : State} {x : Arm} (h : (s.link.arm x).replies.length < replyCapacity)
    (kind tag : Byte) (p : List Byte) (hk : isArmKind kind = true) :
    s.armArrival x ⟨kind, tag, p⟩ =
      (s.armReplied x kind tag (s.guard.serveArm x kind p).2).conclude (s.guard.serveArm x kind p).1 := by
  have hr : ((s.onArmLink x fun k => { k with port := { k.port with rx := .hunt } }).link.arm x).replies =
      (s.link.arm x).replies := by cases x <;> rfl
  unfold State.armArrival
  dsimp only
  rw [hr, if_neg (by omega), if_neg (by simp [hk])]
  cases x <;> rfl

/-! ## The service of each kind -/

theorem Guard.serve_configure {g : Guard} (l : Link) {p : List Byte} (hm : g.mode ≠ .init)
    (hl : supervisorLengthOk 0x01 p = true) : g.serve l 0x01#8 p = g.serveConfigure p := by
  unfold Guard.serve
  rw [if_neg hm, show (0x01#8 : Byte).toNat = 0x01 from rfl, hl]
  rfl

theorem Guard.serve_start {g : Guard} (l : Link) {p : List Byte} (hm : g.mode ≠ .init)
    (hl : supervisorLengthOk 0x02 p = true) : g.serve l 0x02#8 p = g.serveStart := by
  unfold Guard.serve
  rw [if_neg hm, show (0x02#8 : Byte).toNat = 0x02 from rfl, hl]
  rfl

theorem Guard.serve_stop {g : Guard} (l : Link) {p : List Byte} (hm : g.mode ≠ .init)
    (hl : supervisorLengthOk 0x03 p = true) : g.serve l 0x03#8 p = g.serveStop := by
  unfold Guard.serve
  rw [if_neg hm, show (0x03#8 : Byte).toNat = 0x03 from rfl, hl]
  rfl

theorem Guard.serve_restart {g : Guard} (l : Link) {p : List Byte} (hm : g.mode ≠ .init)
    (hl : supervisorLengthOk 0x04 p = true) : g.serve l 0x04#8 p = g.serveRestart := by
  unfold Guard.serve
  rw [if_neg hm, show (0x04#8 : Byte).toNat = 0x04 from rfl, hl]
  rfl

theorem Guard.serve_fence {g : Guard} (l : Link) {p : List Byte} (hm : g.mode ≠ .init)
    (hl : supervisorLengthOk 0x05 p = true) : g.serve l 0x05#8 p = g.serveFence p := by
  unfold Guard.serve
  rw [if_neg hm, show (0x05#8 : Byte).toNat = 0x05 from rfl, hl]
  rfl

theorem Guard.serve_unfence {g : Guard} (l : Link) {p : List Byte} (hm : g.mode ≠ .init)
    (hl : supervisorLengthOk 0x06 p = true) : g.serve l 0x06#8 p = g.serveUnfence p := by
  unfold Guard.serve
  rw [if_neg hm, show (0x06#8 : Byte).toNat = 0x06 from rfl, hl]
  rfl

theorem Guard.serve_loadPlan {g : Guard} (l : Link) {p : List Byte} (hm : g.mode ≠ .init)
    (hl : supervisorLengthOk 0x07 p = true) : g.serve l 0x07#8 p = g.serveLoadPlan p := by
  unfold Guard.serve
  rw [if_neg hm, show (0x07#8 : Byte).toNat = 0x07 from rfl, hl]
  rfl

theorem Guard.serve_dropPlan {g : Guard} (l : Link) {p : List Byte} (hm : g.mode ≠ .init)
    (hl : supervisorLengthOk 0x08 p = true) : g.serve l 0x08#8 p = g.serveDropPlan p := by
  unfold Guard.serve
  rw [if_neg hm, show (0x08#8 : Byte).toNat = 0x08 from rfl, hl]
  rfl

theorem Guard.serve_claimFor {g : Guard} (l : Link) {p : List Byte} (hm : g.mode ≠ .init)
    (hl : supervisorLengthOk 0x09 p = true) : g.serve l 0x09#8 p = g.serveClaimFor p := by
  unfold Guard.serve
  rw [if_neg hm, show (0x09#8 : Byte).toNat = 0x09 from rfl, hl]
  rfl

theorem Guard.serve_revoke {g : Guard} (l : Link) {p : List Byte} (hm : g.mode ≠ .init)
    (hl : supervisorLengthOk 0x0A p = true) : g.serve l 0x0A#8 p = g.serveRevoke p := by
  unfold Guard.serve
  rw [if_neg hm, show (0x0A#8 : Byte).toNat = 0x0A from rfl, hl]
  rfl

theorem Guard.serve_clearFaults {g : Guard} (l : Link) {p : List Byte} (hm : g.mode ≠ .init)
    (hl : supervisorLengthOk 0x0B p = true) : g.serve l 0x0B#8 p = g.serveClearFaults p := by
  unfold Guard.serve
  rw [if_neg hm, show (0x0B#8 : Byte).toNat = 0x0B from rfl, hl]
  rfl

theorem Guard.serve_getStatus {g : Guard} (l : Link) {p : List Byte} (hm : g.mode ≠ .init)
    (hl : supervisorLengthOk 0x0C p = true) : g.serve l 0x0C#8 p = g.serveGetStatus l := by
  unfold Guard.serve
  rw [if_neg hm, show (0x0C#8 : Byte).toNat = 0x0C from rfl, hl]
  rfl

theorem Guard.serve_getRow {g : Guard} (l : Link) {p : List Byte} (hm : g.mode ≠ .init)
    (hl : supervisorLengthOk 0x0D p = true) : g.serve l 0x0D#8 p = g.serveGetRow p := by
  unfold Guard.serve
  rw [if_neg hm, show (0x0D#8 : Byte).toNat = 0x0D from rfl, hl]
  rfl

theorem Guard.serve_setCounters {g : Guard} (l : Link) {p : List Byte} (hm : g.mode ≠ .init)
    (hl : supervisorLengthOk 0x0E p = true) : g.serve l 0x0E#8 p = g.serveSetCounters p := by
  unfold Guard.serve
  rw [if_neg hm, show (0x0E#8 : Byte).toNat = 0x0E from rfl, hl]
  rfl

theorem Guard.serve_getCounters {g : Guard} (l : Link) {p : List Byte} (hm : g.mode ≠ .init)
    (hl : supervisorLengthOk 0x0F p = true) : g.serve l 0x0F#8 p = g.serveGetCounters l := by
  unfold Guard.serve
  rw [if_neg hm, show (0x0F#8 : Byte).toNat = 0x0F from rfl, hl]
  rfl

/-! ## Requests that call for nothing after them -/

/-- A supervisor request whose service is a change of the guard with nothing to follow. -/
theorem State.supervisor_quiet {s : State} (h : s.servesHost) {kind : Byte} (tag : Byte) {p : List Byte}
    (hk : isSupervisorKind kind = true) {g : Guard} {r : Reply} (e : s.guard.serve s.link kind p = (g.event, r)) :
    s.whenPowered (fun s => s.supervisorArrival ⟨kind, tag, p⟩) = .next { s.replied kind tag r with guard := g } := by
  rw [State.whenPowered_on h.1.1, State.supervisorArrival_served h kind tag p hk, e, State.conclude_event]

/-- A supervisor request refused, or answered without a change. -/
theorem State.supervisor_answered {s : State} (h : s.servesHost) {kind : Byte} (tag : Byte) {p : List Byte}
    (hk : isSupervisorKind kind = true) {r : Reply} (e : s.guard.serve s.link kind p = s.guard.answer r) :
    s.whenPowered (fun s => s.supervisorArrival ⟨kind, tag, p⟩) = .next (s.replied kind tag r) :=
  State.supervisor_quiet h tag hk e

/-- An arm's request whose service is a change of the guard with nothing to follow. -/
theorem State.arm_quiet {s : State} {x : Arm} (hp : s.guard.powered = true)
    (h : (s.link.arm x).replies.length < replyCapacity) {kind : Byte} (tag : Byte) {p : List Byte}
    (hk : isArmKind kind = true) {g : Guard} {r : Reply} (e : s.guard.serveArm x kind p = (g.event, r)) :
    s.whenPowered (fun s => s.armArrival x ⟨kind, tag, p⟩) = .next { s.armReplied x kind tag r with guard := g } := by
  rw [State.whenPowered_on hp, State.armArrival_served h kind tag p hk, e, State.conclude_event]

/-- An arm's request refused, or answered without a change. -/
theorem State.arm_answered {s : State} {x : Arm} (hp : s.guard.powered = true)
    (h : (s.link.arm x).replies.length < replyCapacity) {kind : Byte} (tag : Byte) {p : List Byte}
    (hk : isArmKind kind = true) {r : Reply} (e : s.guard.serveArm x kind p = s.guard.answer r) :
    s.whenPowered (fun s => s.armArrival x ⟨kind, tag, p⟩) = .next (s.armReplied x kind tag r) :=
  State.arm_quiet hp h tag hk e

/-! ## Good reads -/

theorem Guard.goodFor_mono {g : Guard} {m n : Nat} (h : g.goodFor n) (k : m ≤ n) : g.goodFor m := by
  obtain ⟨rest, e⟩ := h
  refine ⟨List.replicate (n - m) .good ++ rest, ?_⟩
  rw [e, ← List.append_assoc, List.replicate_append_replicate]
  congr 2
  omega

theorem Guard.goodFor_drawn {g : Guard} {m n : Nat} (h : g.goodFor (m + n)) : (g.drawn m).goodFor n := by
  obtain ⟨rest, e⟩ := h
  refine ⟨rest, ?_⟩
  change g.findings.drop m = _
  rw [e, ← List.replicate_append_replicate, List.append_assoc, List.drop_left' (by simp)]

theorem Guard.drawn_drawn (g : Guard) (m n : Nat) : (g.drawn m).drawn n = g.drawn (m + n) := by
  unfold Guard.drawn
  rw [List.drop_drop]

theorem Guard.drawn_zero (g : Guard) : g.drawn 0 = g := rfl

/-- The draw of a read that finds its cell's entry good. -/
def Event.drawn (ev : Event) (n : Nat) : Event := { ev with guard := ev.guard.drawn n }

theorem Event.readRaw_good {ev : Event} (who : Reader) (c : Cell) (h : ev.guard.goodFor (ev.guard.draws [c])) :
    ev.readRaw who c = (ev.drawn (ev.guard.draws [c]), ev.guard.entryOf c) := by
  unfold Event.readRaw
  by_cases hp : c ∈ ev.guard.poisoned
  · simp [hp, Guard.draws, Event.drawn, Guard.drawn]
  · have hd : ev.guard.draws [c] = 1 := by simp [Guard.draws, hp]
    rw [hd] at h ⊢
    obtain ⟨rest, e⟩ := h
    rw [if_neg hp]
    have e' : ev.guard.findings = .good :: rest := e
    simp only [Guard.drawFinding, e']
    simp only [Event.drawn, Guard.drawn, e', List.drop_succ_cons, List.drop_zero]
    rfl

theorem Event.readCell_good {ev : Event} (who : Reader) (c : Cell) (ht : ev.touched = [])
    (h : ev.guard.goodFor (ev.guard.draws [c])) :
    ev.readCell who c = (ev.drawn (ev.guard.draws [c]), ev.guard.entryOf c) := by
  unfold Event.readCell
  rw [ev.readRaw_good who c h]
  dsimp only
  rw [Event.settle_untouched (ev := ev.drawn _) ht]

theorem Guard.draws_cons (g : Guard) (c : Cell) (cs : CellSet) : g.draws (c :: cs) = g.draws [c] + g.draws cs := by
  unfold Guard.draws
  by_cases h : c ∈ g.poisoned <;> simp [h]
  omega

/-- Reads that all find their entries good draw their findings and deliver the entries. -/
theorem Event.readCells_good {ev : Event} (who : Reader) (cells : CellSet) (ht : ev.touched = [])
    (h : ev.guard.goodFor (ev.guard.draws cells)) :
    ev.readCells who cells = (ev.drawn (ev.guard.draws cells), cells.map ev.guard.entryOf) := by
  induction cells generalizing ev with
  | nil => rfl
  | cons c cs ih =>
    rw [Guard.draws_cons] at h ⊢
    unfold Event.readCells
    rw [ev.readCell_good who c ht (Guard.goodFor_mono h (by omega))]
    have := ih (ev := ev.drawn (ev.guard.draws [c])) ht (Guard.goodFor_drawn h)
    simp only [this]
    exact Prod.ext (by simp only [Event.drawn, Guard.drawn_drawn]; rfl) rfl

/-- An effective set formed with good reads leaves out the excluded cells. -/
theorem Event.form_good {ev : Event} (cells : CellSet) (ht : ev.touched = [])
    (h : ev.guard.goodFor (ev.guard.draws cells)) :
    ev.form cells = (ev.drawn (ev.guard.draws cells), cells.filter fun c => !(ev.guard.entryOf c).isExcluded) := by
  unfold Event.form
  rw [ev.readCells_good .arbiter cells ht h]
  rfl

/-! ## The entries of a LOAD_PLAN -/

/-- The entries that the test accepts are those of the payload one by one, each valid (R106). -/
theorem parsePlanEntries_ok {cfg : ConfigSet} {p : List Byte} {n i : Nat} {es : List PlanEntry}
    (h : parsePlanEntries cfg p n i = .ok es) : es.length = n ∧ ∀ j < n,
      ∃ e, es[j]? = some e ∧ parsePlanEntry (p.drop (5 + planEntryLength * (i + j))) = some e ∧ e.valid cfg = true := by
  induction n generalizing i es with
  | zero => cases h; exact ⟨rfl, fun j hj => absurd hj (Nat.not_lt_zero j)⟩
  | succ n ih =>
    rw [parsePlanEntries] at h
    split at h
    · cases h
    · rename_i e he
      split at h
      · rename_i es' hes
        cases h
        have ⟨hl, hj⟩ := ih hes
        have ⟨hp, hv⟩ := Option.filter_eq_some_iff.1 he
        refine ⟨by simp [hl], fun j hlt => ?_⟩
        cases j with
        | zero => exact ⟨e, rfl, hp, hv⟩
        | succ j =>
          have hij : i + (j + 1) = i + 1 + j := by omega
          rw [hij]
          exact hj j (Nat.lt_of_succ_lt_succ hlt)
      · cases h

/-- The index that the test refuses with is that of the first entry that is not valid (R106). -/
theorem parsePlanEntries_error {cfg : ConfigSet} {p : List Byte} {n i k : Nat}
    (h : parsePlanEntries cfg p n i = .error k) : i ≤ k ∧ k < i + n ∧
      (∀ e, parsePlanEntry (p.drop (5 + planEntryLength * k)) = some e → e.valid cfg = false) ∧
      ∀ j, i ≤ j → j < k → ∃ e, parsePlanEntry (p.drop (5 + planEntryLength * j)) = some e ∧ e.valid cfg = true := by
  induction n generalizing i with
  | zero => cases h
  | succ n ih =>
    rw [parsePlanEntries] at h
    split at h
    · rename_i he
      cases h
      exact ⟨Nat.le_refl _, by omega, fun e hp => by simpa [hp] using he, fun j h1 h2 => by omega⟩
    · rename_i e he
      split at h
      · cases h
      · rename_i k' hk
        cases h
        have ⟨h1, h2, h3, h4⟩ := ih hk
        refine ⟨by omega, by omega, h3, fun j hij hjk => ?_⟩
        rcases Nat.eq_or_lt_of_le hij with rfl | hlt
        · exact ⟨e, Option.filter_eq_some_iff.1 he⟩
        · exact h4 j hlt hjk

/-- The mask of the clamped entries as a sum over the entries. -/
theorem clampedEntries_eq_sum (es : List PlanEntry) : clampedEntries es =
    ((List.range es.length).map fun i =>
      flagBit (match es[i]? with | some e => 7 < e.priority | none => false) i).sum := by
  unfold clampedEntries
  exact (List.foldl_map.symm).trans List.sum_eq_foldl.symm

end Sys2Proof.Machine
end

