-- ==== Sys2Proof/Tests/Slice0.lean ====
section
/-! SUPPORT. Tests of the model: ill-formed commands that the check refuses, worked examples of the spec, small runs of
one command, and for every statement with hypotheses a state and operands that meet them. -/

namespace Sys2Proof.Tests

open Sys2Proof Sys2Proof.Machine

/- One test after the other: tests that the kernel decides would else each hold a thread while they wait for it. -/
set_option Elab.async false

/-! ## The check on commands -/

/-- A payload one byte too long. -/
def long : List Byte := List.replicate 249 0#8

theorem test_long_payload_refused : ∀ i ∈ [Instr.supervisorRequestArrival 1#8 0#8 long, .configure 0#8 long,
    .start 0#8 long, .stop 0#8 long, .restart 0#8 long, .fence 0#8 long, .unfence 0#8 long, .loadPlan 0#8 long,
    .dropPlan 0#8 long, .claimFor 0#8 long, .revoke 0#8 long, .clearFaults 0#8 long, .getStatus 0#8 long,
    .getRow 0#8 long, .setCounters 0#8 long, .getCounters 0#8 long, .sample .A 0#8 long, .request .A 0#8 long,
    .skip .A 0#8 long, .release .A 0#8 long, .armPortUnknownKind .A 0#8 0#8 long], i.wellFormed = false := by decide +kernel

theorem test_whole_frame_is_no_lost_frame :
    (Instr.frameBadCheck .supervisor []).wellFormed = false ∧
    (Instr.frameBadCheck .supervisor ((Frame.mk 2#8 7#8 []).bytes.map fun b => .whole b false)).wellFormed = false ∧
    (Instr.frameAbandoned .supervisor [.whole 0xC3#8 false, .whole 248#8 false]).wellFormed = false := by decide +kernel

theorem test_drop_loaded_is_its_own_row : (Instr.dropPlan 0#8 [0#8, 1#8]).wellFormed = false := by decide

theorem test_arm_kind_is_no_unknown_kind : (Instr.armPortUnknownKind .A 0x20#8 0#8 []).wellFormed = false := by decide

theorem test_well_formed : ∀ i ∈ [Instr.powerOn, .dropPlan 0#8 [0#8, 0#8], .armPortUnknownKind .A 0x24#8 0#8 [],
    .frameAbandoned .supervisor [.whole 0xC3#8 false, .whole 249#8 false], .start 0#8 (List.replicate 248 0#8)],
    i.wellFormed = true := by decide +kernel

/-! ## The words of the table -/

theorem test_no_row_has_bits : decodeTableWord 8 0 = none ∧ decodeTableWord 32 0xFFFFFFFF = none := by decide

/-! ## Worked examples of the spec -/

/-- The check of R156 over the nine digits of its usual test. -/
theorem test_crc : crc16 [0x31#8, 0x32#8, 0x33#8, 0x34#8, 0x35#8, 0x36#8, 0x37#8, 0x38#8, 0x39#8] = 0x29B1#16 := by
  decide +kernel

theorem test_placing_points :
    ConfigSet.default.cellAt 2599 100 = some ⟨12, 0⟩ ∧ ConfigSet.default.cellAt 2600 100 = some ⟨13, 0⟩ ∧
    ConfigSet.default.cellAt 0 0 = some ⟨0, 0⟩ ∧ ConfigSet.default.cellAt (-1) 0 = none ∧
    ConfigSet.default.cellAt 6400 0 = none := by decide

theorem test_samples_lost :
    samplesLost (some 41#8) 42#8 = 0 ∧ samplesLost (some 255#8) 0#8 = 0 ∧ samplesLost (some 250#8) 3#8 = 8 ∧
    samplesLost (some 10#8) 10#8 = 0 ∧ samplesLost (some 10#8) 9#8 = 254 ∧ samplesLost none 200#8 = 0 := by decide

theorem test_early : isEarly (some 1020) 1023 5 = true ∧ isEarly (some 1040) 1045 5 = false ∧ isEarly none 0 5 = false := by
  decide

theorem test_velocity_clamp :
    (Velocity.mk 12000 (-32768) 40).clampCount = 2 ∧ (Velocity.mk 12000 (-32768) 40).clamped.speed = 10000 ∧
    (Velocity.mk (-300) 250 (-600)).clampCount = 0 ∧ (Velocity.mk (-300) 250 (-600)).clamped.speed = 600 := by decide

theorem test_stopping_distance :
    stoppingDistance 80 300 2000 = 827 ∧ stoppingDistance 80 300 (-500) = 82 ∧ stoppingDistance 80 300 (-100) = 10 ∧
    stoppingDistance 80 300 4722 = 4094 ∧ stoppingDistance 80 300 4723 = 4095 ∧ stoppingDistance 500 10 857 = 4095 ∧
    stoppingDistance 500 10 856 = 4092 ∧ stoppingDistance 0 1000 1 = 1 ∧ stoppingDistance 100 500 (-3000) = 1200 := by
  decide

/-- The reference sample of chapter 3. -/
def reference : Sample := ⟨0#8, ⟨1500, 900, 1200⟩, none, ⟨2000, -500, -100⟩⟩

theorem test_reference_sample :
    stoppingBox .default reference = ⟨1200, 2627, 518, 1200⟩ ∧ lowestHeight .default reference = 1190 ∧
    (stoppingBox .default reference).cellRange .default = some ⟨6, 13, 2, 6⟩ ∧
    (⟨6, 13, 2, 6⟩ : Rect).cells.length = 40 := by decide +kernel

theorem test_two_readings :
    (stoppingBox .default { reference with p2 := some ⟨1680, 900, 1200⟩ }).cellRange .default = some ⟨6, 14, 2, 6⟩ ∧
    Sample.disagrees { reference with p2 := some ⟨1680, 900, 1200⟩ } .default = true ∧
    Sample.disagrees { reference with p2 := some ⟨1512, 893, 1195⟩ } .default = false := by decide

theorem test_lower_corner :
    (stoppingBox .default ⟨0#8, ⟨200, 150, 800⟩, none, ⟨-1000, -400, 0⟩⟩).cellRange .default = some ⟨0, 2, 0, 2⟩ ∧
    (stoppingBox .default ⟨0#8, ⟨-310, 150, 800⟩, none, ⟨0, 0, 0⟩⟩).cellRange .default = none := by decide

theorem test_geometry_change_places_the_box :
    let box : Box := ⟨1200, 2627, 518, 1200⟩
    box.cellRange { ConfigSet.default with nc := 10 } = some ⟨6, 9, 2, 6⟩ ∧
    box.cellRange { ConfigSet.default with pitch := 400 } = some ⟨3, 6, 1, 3⟩ ∧
    box.cellRange { ConfigSet.default with nc := 5 } = none := by decide

/-- The zone after a sample whose lowest height is `z`, over the middle of the default grid. -/
def zoneAt (previous : Zone) (z : Int) : Zone :=
  (Calculator.sample { Calculator.initial with zone := previous } .default .A ⟨0#8, ⟨3000, 2000, z⟩, none, ⟨0, 0, 0⟩⟩).zone

theorem test_hysteresis :
    zoneAt .clear 1520 = .clear ∧ zoneAt .clear 1499 = .inside ∧ zoneAt .inside 1549 = .inside ∧
    zoneAt .inside 1550 = .clear ∧ zoneAt .clear 1500 = .clear ∧ zoneAt .unknown 1500 = .clear := by decide

theorem test_shape_on_a_smaller_grid :
    (Shape.rect 18 21 0 0).cells { ConfigSet.default with nc := 20 } = [⟨18, 0⟩, ⟨19, 0⟩] ∧
    (Shape.rect 18 21 0 0).cells { ConfigSet.default with nc := 16 } = [] := by decide

theorem test_scrub_visit_times :
    let g := { Guard.initial with scrub := ⟨767, 5000, 1000, true⟩ }
    g.scrubLength = 768 ∧ g.scrubTime = 5998 ∧ g.scrubCell 767 = ⟨31, 23⟩ ∧ g.scrubCell 1 = ⟨1, 0⟩ ∧
    { g with scrub := ⟨1, 5000, 1000, true⟩ }.scrubTime = 5001 := by decide +kernel

/-! ## Small states -/

/-- A grid of two columns and two rows. -/
def cfg : ConfigSet := { ConfigSet.default with nc := 2, nr := 2 }

/-- An arm that stands clear with no source asserted. -/
def free : ArmState := { ArmState.initial with
  unit := { ActionUnit.initial with
    sources := { Sources.initial with noPosition := false }
    level := .none
    lines := ⟨⟨true, .none⟩, ⟨true, .none⟩, ⟨true, .none⟩⟩ }
  calculator := { Calculator.initial with zone := .clear, box := some ⟨0, 0, 0, 0⟩ } }

/-- The guard on that grid with both arms free. -/
def guard (m : Mode) : Guard := { Guard.initial with mode := m, linesCut := false, cfg := cfg, a := free, b := free }

/-- A state of that guard. -/
def state (g : Guard) : State := ⟨g, .initial, []⟩

/-- The guard with good reads to come. -/
def good (g : Guard) : Guard := { g with findings := List.replicate 20 .good }

/-- The state after a command, and the same state after a stop. -/
def run (c : Instr) (s : State) : State :=
  match exec c s with
  | .next t => t
  | .fault _ => s
  | .refused _ => s

/-- The reply under transmission at a port, its sync and header bytes left out. -/
def replyOf (p : PortState) : List Byte := (p.tx.map fun t => t.bytes.drop 4).getD []

/-- The cell (0, 0) and the cell (1, 0). -/
def c00 : Cell := ⟨0, 0⟩
/-- See `c00`. -/
def c10 : Cell := ⟨1, 0⟩

/-- A claim for one cell. -/
def claim (x : Arm) (n : Byte) (o : Origin) (ph : Phase) (c : Cell) : Claim where
  arm := x
  number := n
  origin := o
  shape := .rect c.col c.col c.row c.row
  effective := [c]
  excluded := 0
  base := 3
  priority := 3
  phase := ph
  waitStart := 0
  reserving := .no
  reserved := []
  entered := ph = .held
  aging := if ph = .waiting then some 0 else none
  timeout := if ph = .waiting then some 0 else none

/-- A plan of two entries, the first for the cell (0, 0). -/
def plan : Plan := newPlan 7 1 [⟨.rect 0 0 0 0, 3, none⟩, ⟨.rect 1 1 0 0, 3, some (250, 10)⟩]

/-- Arm A holds (0, 0) by the first entry of its plan and waits for (1, 0) by the second. -/
def working : Guard :=
  { guard .guarding with
    a := { free with slot0 := .active { plan with issued := 1, cursor := 1 } }
    claims := [claim .A 0#8 (.plan .slot0 0) .held c00]
    store := [(0, { Entry.free with owner := some .A })] }

/-- The same arm with a waiting claim, whose cell arm B holds. -/
def waitingFor : Guard :=
  { guard .guarding with
    a := { free with slot0 := .active { plan with issued := 1, cursor := 1 } }
    claims := [claim .A 0#8 (.plan .slot0 0) .waiting c00, claim .B 0#8 .supervisor .held c00]
    store := [(0, { Entry.free with owner := some .B })] }

/-! ## One command on a small state -/

theorem test_reset_idles : step State.reset = .next State.reset := rfl

theorem test_start : (run (.start 9#8 []) (state (guard .setup))).guard.mode = .guarding ∧
    (run (.start 9#8 []) (state (guard .setup))).link.sup.port.tx = some ⟨true, (Frame.mk 0x82#8 9#8 [0#8]).bytes⟩ ∧
    (run (.start 9#8 []) (state (guard .setup))).link.sup.notices = [.mode .guarding .start] := by decide +kernel

theorem test_stop : (run (.stop 9#8 []) (state (good working))).guard.mode = .draining ∧
    (run (.stop 9#8 []) (state (good waitingFor))).guard.mode = .setup ∧
    (run (.stop 9#8 []) (state (good waitingFor))).guard.claims.length = 1 := by decide +kernel

theorem test_fence_counts : (run (.fence 9#8 [1#8, 0#8, 1#8, 0#8, 0#8, 0#8, 0#8]) (state (good working))).guard.entryOf c10 =
      { Entry.free with hostFence := true } ∧
    ((run (.fence 9#8 [1#8, 0#8, 1#8, 0#8, 0#8, 0#8, 0#8]) (state (good working))).guard.entryOf c00).fencePending = true ∧
    (replyOf (run (.fence 9#8 [1#8, 0#8, 1#8, 0#8, 0#8, 0#8, 0#8]) (state (good working))).link.sup.port).take 7 =
      [0#8, 1#8, 0#8, 1#8, 0#8, 0#8, 0#8] := by decide +kernel

theorem test_revoke : (run (.revoke 9#8 [0#8]) (state (good working))).guard.claims = [] ∧
    (run (.revoke 9#8 [0#8]) (state (good working))).guard.store = [] ∧
    (run (.revoke 9#8 [0#8]) (state (good working))).link.a.port.tx.isSome = true := by decide +kernel

theorem test_claim_for : ((run (.claimFor 9#8 [0#8, 1#8, 1#8, 1#8, 0#8, 0#8, 0#8, 0#8])
    (state (good (guard .setup)))).guard.claims.map fun c => (c.phase, c.effective)) = [(.held, [c10])] := by decide +kernel

theorem test_grant_counts : (Counter.mk .grants 4294967295).atGrant 3 = ⟨.grants, 4294967295⟩ ∧
    (Counter.mk .grants 0).atGrant 3 = ⟨.grants, 1⟩ ∧ (Counter.mk .cellsExcluded 2).atGrant 3 = ⟨.cellsExcluded, 5⟩ ∧
    (Counter.mk .picks 2).atGrant 3 = ⟨.picks, 2⟩ := by decide

theorem test_request_is_granted :
    let t := run (.request .A 5#8 []) (state (good working))
    t.guard.claims.map (fun c => (c.phase, c.effective)) = [(.held, [c00]), (.held, [c10])] ∧
      (replyOf t.link.a.port).take 3 = [0#8, 1#8, 1#8] ∧
      t.link.a.notices = [.granted 1#8 (.plan .slot0 1) 7 (some (250, 10)) 1 0] ∧
      (t.guard.arm .A).slot0.code = 3 := by decide +kernel

theorem test_release : (run (.release .A 5#8 [0#8, 1#8]) (state (good working))).guard.claims = [] ∧
    ((run (.release .A 5#8 [0#8, 1#8]) (state (good working))).guard.arm .A).slot0 =
      .active { plan with issued := 1, cursor := 1, missed := 1 } := by decide +kernel

theorem test_skip : ((run (.skip .A 5#8 []) (state working)).guard.arm .A).slot0 =
    .finishing { plan with issued := 2, passesCompleted := 1, skipped := 1, endReason := some .complete } := by decide +kernel

/-- A SAMPLE of an arm deep in the tray at (100, 100), at rest. -/
def deep : List Byte :=
  [1#8, 0#8, 100#8, 0#8, 100#8, 0#8, 10#8, 0#8, 0#8, 0#8, 0#8, 0#8, 0#8, 0#8]

/-- A SAMPLE of an arm above the tray. -/
def above : List Byte :=
  [2#8, 0#8, 100#8, 0#8, 100#8, 0#8, 0#8, 0x40#8, 0#8, 0#8, 0#8, 0#8, 0#8, 0#8]

theorem test_sample_in_free_cells :
    let t := run (.sample .A 5#8 deep) (state (good working))
    (t.guard.arm .A).verdict = ⟨true, false, false⟩ ∧ (t.guard.arm .A).unit.level = .hold ∧
      (t.guard.arm .A).calculator.zone = .inside ∧ (t.guard.arm .A).unit.sources.disagree = true ∧
      (t.guard.arm .A).unit.lines.moveOk.given = false := by decide +kernel

theorem test_lost_frame : (run (.frameAbandoned (.arm .B) [.whole 0xC3#8 false, .whole 249#8 false])
    (state (guard .setup))).link.b.port = { PortState.initial with abandoned := 1 } := by decide +kernel

theorem test_scrub_finds_damage :
    let t := run .scrubVisit (state { guard .setup with findings := [.rebuilt], scrub := ⟨0, 0, 1000, true⟩ })
    (t.guard.sections.get 0).errors = 4 ∧ (t.guard.sections.get 0).uncorrectable = 1 ∧
      t.link.sup.port.tx.isSome = true := by decide +kernel

theorem test_gap : ((run (.gapTimerExpiry .A) (state { guard .setup with
    a := { free with intake := ⟨none, some 0, none, .running, some 0⟩ } })).guard.arm .A).unit.level = .hold := by
  decide +kernel

theorem test_power_loss : (run (.powerLoss .permit) (state working)).guard.linesCut = true ∧
    ((run (.powerLoss .permit) (state working)).guard.arm .A).unit.lines.speedOk.given = false ∧
    ((run (.powerLoss .permit) (state working)).guard.arm .A).unit.level = .none := by decide +kernel

/-- VPERM lost in INIT is still absent once INIT has ended, and back after the next power-on. -/
theorem test_power_loss_in_init :
    let s := state { Guard.initial with findings := List.replicate 1536 .good }
    let t := run .initEnd (run (.powerLoss .permit) s)
    t.guard.mode = .setup ∧ (t.guard.arm .A).unit.level = .hold ∧ t.guard.permitSupply = false ∧
      (t.guard.arm .A).unit.lines.powerOk.given = false ∧
      ((run .initEnd (run .powerOn t)).guard.arm .A).unit.lines.powerOk.given = true := by decide +kernel

/-- A retirement whose second read poisons the cell that its first read found free: that cell is not counted as made
FENCED. -/
theorem test_retirement_counts_entries :
    let g := { (guard .setup).onSection 0 fun t => { t with errors := 15 } with
      findings := [.corrected, .good, .good, .unholding] ++ List.replicate 30 .good
      cfg := { cfg with nc := 9 }
      scrub := ⟨0, 0, 1000, true⟩ }
    (run .scrubVisit (state g)).link.sup.notices =
      [.poisoned ⟨2, 0⟩ none .read, .retired 0 15 0 0 0] := by decide +kernel

/-! ## States that meet the hypotheses of the statements -/

/-- The supervisor port of a state replaced. -/
def withSup (g : Guard) (k : SupervisorLink) : State := ⟨g, { Link.initial with sup := k }, []⟩

/-- The supervisor port with a reply in its slot. -/
def taken : SupervisorLink := { Link.initial.sup with slot := some ⟨0x82#8, 9#8, [0#8]⟩ }

/-- A queued request. -/
def queued : Frame := ⟨0x0C#8, 1#8, []⟩

theorem serves (g : Guard) (h : g.powered = true) (m : g.mode ≠ .init) : (state g).servesHost := ⟨⟨h, m⟩, rfl⟩

theorem servesArms (g : Guard) (h : g.powered = true) (m : g.mode ≠ .init) (x : Arm) : (state g).servesArm x :=
  ⟨⟨h, m⟩, by cases x <;> exact Nat.zero_lt_succ _⟩

/-- A command whose reads are all foretold good draws nothing beyond them. -/
theorem goodReads_of (c : Instr) (g : Guard) (h : (run c (state (good g))).guard.reads = g.reads) :
    (state (good g)).goodReads (run c (state (good g))) := ⟨fun _ hf => List.eq_of_mem_replicate hf, h⟩

theorem test_hyps_EveryCommandCompletes :
    (state { guard .setup with powered := false }).guard.powered = false ∧ Instr.initEnd ≠ .powerOn ∧
    ∀ u, Instr.initEnd ≠ .powerLoss u := ⟨rfl, by decide, by intro u; cases u <;> decide⟩

theorem test_hyps_InitEndEntersSetup :
    (State.reset.guard.powered = true ∧ State.reset.guard.mode = .init ∧ State.reset.guard.claims = [] ∧
      ∀ x, (State.reset.guard.arm x).unit.level = .halt) ∧
    (state (guard .setup)).guard.powered = true ∧ (state (guard .setup)).guard.mode ≠ .init :=
  ⟨⟨rfl, rfl, rfl, by intro x; cases x <;> rfl⟩, rfl, by decide⟩

/-- The guard at reset with a good verify foretold for every entry. -/
def verified : State := state { Guard.initial with findings := List.replicate 768 .good }

theorem test_hyps_InitEndEntersSetup_good : verified.goodReads (run .initEnd verified) :=
  ⟨fun _ hf => List.eq_of_mem_replicate hf, by decide +kernel⟩

theorem test_hyps_InitEndEntersSetup_poisoned :
    State.reset.guard.poisoned = [] ∧ ∀ x, (State.reset.guard.arm x).vacate = [] := ⟨rfl, by intro x; cases x <;> rfl⟩

theorem test_hyps_PermitLinesDropAndShort :
    (state (guard .setup)).guard.powered = true ∧ (PermitLine.mk true .none).given = true ∧
    (PermitLine.mk true .none).short = .none := ⟨rfl, rfl, rfl⟩

theorem test_hyps_LostFramesAreCounted :
    (state (guard .setup)).guard.powered = true ∧ ((state (guard .setup)).link.port (.arm .B)).rx = .hunt ∧
    (Instr.frameBadCheck (.arm .B) ([0xC3#8, 0#8, 0x22#8, 0#8, 0#8, 0#8].map fun b => .whole b false)).wellFormed = true ∧
    (Instr.frameAbandoned (.arm .B) [.whole 0xC3#8 false, .whole 249#8 false]).wellFormed = true ∧
    (Instr.frameAbandoned (.arm .B) [.whole 0xC3#8 false, .broken]).wellFormed = true ∧
    (Instr.frameAbandoned (.arm .B) [.whole 0xC3#8 false, .whole 1#8 true]).wellFormed = true := by decide +kernel

theorem test_hyps_FrameBytesAreReceivedWhole :
    (Frame.mk 0x20#8 0#8 (List.replicate 248 0#8)).payload.length ≤ 248 := by decide +kernel

theorem test_hyps_SupervisorArrivalCases :
    (state (guard .setup)).guard.powered = true ∧ (state (guard .setup)).guard.mode ≠ .init ∧
    isSupervisorKind 0#8 = false ∧ isSupervisorKind 0x10#8 = false ∧ isSupervisorKind 1#8 = true ∧ isSupervisorKind 0x0F#8 = true ∧
    State.reset.guard.powered = true ∧ State.reset.guard.mode = .init ∧ State.reset.link.sup.isIdle = true ∧
    (let s := withSup (guard .setup) { taken with refusals := List.replicate 3 ⟨queued, 0⟩ };
      s.link.sup.isIdle = false ∧ s.link.sup.refusals.length < 4 ∧ s.link.sup.queue.length < 4) ∧
    4 ≤ { taken with refusals := List.replicate 4 ⟨queued, 0⟩ }.refusals.length ∧
    4 ≤ { taken with queue := List.replicate 4 queued }.queue.length ∧
    ({ taken with queue := List.replicate 3 queued }.queue.length < 4 ∧
      { taken with queue := List.replicate 3 queued }.isIdle = false) ∧
    (state (guard .setup)).link.sup.isIdle = true ∧ supervisorLengthOk 0x02 [0#8] = false := by decide +kernel

theorem test_hyps_RequestRowsAreArrivals : (state (guard .setup)).guard.powered = true := rfl

theorem test_hyps_TransmitEndChoosesNext :
    (withSup (guard .setup) { taken with port := { PortState.initial with tx := some ⟨false, []⟩ } }).guard.powered = true ∧
    { taken with port := { PortState.initial with tx := some ⟨false, []⟩ } }.slot = some ⟨0x82#8, 9#8, [0#8]⟩ ∧
    (let k := { taken with port := { PortState.initial with tx := some ⟨true, []⟩ } };
      k.port.tx = some ⟨true, []⟩ ∧ (Sending.mk true []).reply = true ∧ k.refusals = [] ∧ k.queue = []) ∧
    (let k := { taken with slot := none, port := { PortState.initial with tx := some ⟨false, []⟩ }, queue := [queued] };
      k.port.tx = some ⟨false, []⟩ ∧ k.slot = none ∧ k.refusals = [] ∧ k.queue = queued :: []) ∧
    (let k := { taken with refusals := [⟨queued, 0⟩], queue := [queued] };
      k.refusals = ⟨queued, 0⟩ :: [] ∧ (HeldRefusal.mk queued 0).ahead = 0) ∧
    (let k := { taken with refusals := [⟨queued, 1⟩] };
      k.refusals = ⟨queued, 1⟩ :: [] ∧ k.queue = []) ∧
    (let k := { taken with refusals := [⟨queued, 1⟩], queue := [queued] };
      k.refusals = ⟨queued, 1⟩ :: [] ∧ 0 < (HeldRefusal.mk queued 1).ahead ∧ k.queue = queued :: []) := by decide

/-- A notice for the host and one for an arm. -/
def hostNotice : Notice := .mode .setup .start
/-- See `hostNotice`. -/
def armNotice : ArmNotice := .withdrawn 0#8 .supervisor

theorem test_hyps_TransmitEndChoosesNext_notices :
    32 ≤ { Link.initial.sup with notices := List.replicate 32 hostNotice }.notices.length ∧
    (let k := { taken with
        notices := List.replicate 31 hostNotice
        port := { PortState.initial with tx := some ⟨true, []⟩ } };
      k.notices.length < 32 ∧ k.port.tx ≠ none) ∧
    (Link.initial.sup.notices = [] ∧ Link.initial.sup.port.tx = none ∧ Link.initial.sup.slot = none) ∧
    8 ≤ { ArmLink.initial with notices := List.replicate 8 armNotice }.notices.length ∧
    (let k := { ArmLink.initial with
        notices := List.replicate 7 armNotice
        port := { PortState.initial with tx := some ⟨true, []⟩ } };
      k.notices.length < 8 ∧ k.port.tx ≠ none) ∧
    ((Link.initial.arm .B).notices = [] ∧ (Link.initial.arm .B).port.tx = none ∧ (Link.initial.arm .B).replies = []) := by
  decide +kernel

theorem test_hyps_ArmArrivalCases :
    (state (guard .setup)).guard.powered = true ∧ State.reset.guard.powered = true ∧
    ((0x1F#8).toNat < 0x20 ∨ 0x23 < (0x1F#8).toNat) ∧ ((0x24#8).toNat < 0x20 ∨ 0x23 < (0x24#8).toNat) ∧
    { ArmLink.initial with replies := List.replicate 3 queued }.replies.length < 4 ∧
    4 ≤ { ArmLink.initial with replies := List.replicate 4 queued }.replies.length ∧
    State.reset.guard.mode = .init ∧ (state (guard .setup)).guard.mode ≠ .init ∧
    [0#8].length ≠ 0 ∧ [0#8].length ≠ 2 ∧ [0#8, 0#8, 0#8].length ≠ 2 := by decide

/-- CONFIGURE of t_age to 1. -/
def setAge : List Byte := [8#8, 0#8, 1#8, 0#8, 0#8, 0#8]
/-- CONFIGURE of pitch to 40. -/
def setPitch : List Byte := [3#8, 0#8, 40#8, 0#8, 0#8, 0#8]
/-- CONFIGURE of nc to 1. -/
def setColumns : List Byte := [1#8, 0#8, 1#8, 0#8, 0#8, 0#8]

theorem test_hyps_ConfigureStoresItems : (state (guard .setup)).servesHost ∧
    ∀ p ∈ [[], setAge], (state (guard .setup)).guard.mode = .setup ∧ supervisorLengthOk 0x01 p = true ∧
      firstBadItem [] 0 (parseItems p) = none ∧
      (guard .setup).cfg.sameGeometry ((parseItems p).foldl ConfigSet.apply (guard .setup).cfg) = true ∧
      (∀ k ∈ (guard .setup).claims, k.isPlan = false) := ⟨serves _ rfl (by decide), by decide⟩

/-- CONFIGURE of arm A's action of REACH to NONE. -/
def dropReach : List Byte := [32#8, 0#8, 0#8, 0#8, 0#8, 0#8]

/-- The guard in SETUP with REACH latched for arm A. -/
def reached : Guard := { guard .setup with a := { free with unit := { free.unit with
  sources := { free.unit.sources with reach := true }
  level := .hold } } }

theorem test_hyps_ConfigureStoresItems_action : (state reached).servesHost ∧
    (let c := (parseItems dropReach).foldl ConfigSet.apply reached.cfg;
      reached.mode = .setup ∧ supervisorLengthOk 0x01 dropReach = true ∧ firstBadItem [] 0 (parseItems dropReach) = none ∧
        reached.cfg.sameGeometry c = true ∧ (c.arm .A).actions ≠ (reached.cfg.arm .A).actions ∧
        levelOf (c.arm .A) (reached.arm .A).unit.sources ≠ (reached.arm .A).unit.level ∧
        (c.arm .B).actions = (reached.cfg.arm .B).actions) := ⟨serves _ rfl (by decide), by decide⟩

theorem test_hyps_GeometryChangeRewritesMap : (state (guard .setup)).servesHost ∧ (state (guard .setup)).guard.mode = .setup ∧
    storeWf (guard .setup).store = true ∧ (guard .setup).claims = [] ∧ ((guard .setup).arm .A).calculator.box ≠ none ∧
    Calculator.initial.box = none ∧
    (∀ p ∈ [setPitch, setColumns], supervisorLengthOk 0x01 p = true ∧ firstBadItem [] 0 (parseItems p) = none ∧
      (guard .setup).cfg.sameGeometry ((parseItems p).foldl ConfigSet.apply (guard .setup).cfg) = false) ∧
    (guard .setup).cfg.nc = ((parseItems setPitch).foldl ConfigSet.apply (guard .setup).cfg).nc ∧
    (guard .setup).noSectionFor ((parseItems setColumns).foldl ConfigSet.apply (guard .setup).cfg) = false :=
  ⟨serves _ rfl (by decide), by decide⟩

/-- A guard of nine columns whose first section is retired. -/
def halfRetired : Guard := { (guard .setup).onSection 0 fun t => { t with retired := true } with cfg := { cfg with nc := 9 } }

theorem test_hyps_RefusedRequestsChangeNothing :
    ((state working).servesHost ∧ (state (guard .setup)).servesHost ∧ (state halfRetired).servesHost) ∧
    supervisorLengthOk 0x01 setPitch = true ∧ (state working).guard.mode ≠ .setup ∧
    firstBadItem [] 0 (parseItems [0#8, 0#8, 0#8, 0#8, 0#8, 0#8]) = some 0 ∧
    firstBadItem [] 0 (parseItems (setAge ++ setAge)) = some 1 ∧
    (let g := { guard .setup with claims := [claim .A 0#8 .supervisor .held c00] };
      g.mode = .setup ∧ g.cfg.sameGeometry ((parseItems setPitch).foldl ConfigSet.apply g.cfg) = false ∧ g.claims ≠ []) ∧
    (let p := [1#8, 0#8, 8#8, 0#8, 0#8, 0#8];
      let c := (parseItems p).foldl ConfigSet.apply halfRetired.cfg;
      firstBadItem [] 0 (parseItems p) = none ∧ halfRetired.claims = [] ∧ halfRetired.cfg.nc ≠ c.nc ∧
        halfRetired.noSectionFor c = true) ∧
    (List.replicate 7 0#8).length = 7 ∧ shapeAt (guard .setup).cfg (List.replicate 7 0#8) 0 = none ∧
    armOf (u8 (List.replicate 8 2#8) 0) = none ∧ shapeAt (guard .setup).cfg (List.replicate 8 0#8) 1 = none ∧
    (let p := [0#8, 1#8, 0#8, 0#8, 0#8, 0#8, 0#8, 0#8];
      p.length = 8 ∧ armOf (u8 p 0) = some .A ∧ shapeAt (guard .setup).cfg p 1 ≠ none ∧
        2 ≤ Guard.claimCount { guard .setup with claims := [claim .A 0#8 .supervisor .held c00,
          claim .A 1#8 .supervisor .held c10] } .A) :=
  ⟨⟨serves _ rfl (by decide), serves _ rfl (by decide), serves _ rfl (by decide)⟩, by decide⟩

theorem test_hyps_StartEntersGuard :
    ((state (guard .setup)).servesHost ∧ (state working).servesHost ∧ (state { working with mode := .draining }).servesHost) ∧
    (state working).guard.mode = .guarding ∧ (guard .setup).mode = .setup ∧
    (let fits := fun (c : ConfigSet) => [decide (c.x0 + (c.nc : Int) * c.pitch ≤ 32767), decide (c.y0 + (c.nr : Int) * c.pitch ≤ 32767),
        decide (c.a.tMin < c.a.tGap), decide (c.b.tMin < c.b.tGap)];
      fits { cfg with x0 := 32368 } = [false, true, true, true] ∧
      fits { cfg with x0 := 32367, y0 := 32368 } = [true, false, true, true] ∧
      fits { cfg with a := { cfg.a with tMin := 30 } } = [true, true, false, true] ∧
      fits { cfg with b := { cfg.b with tMin := 30 } } = [true, true, true, false] ∧
      fits (guard .setup).cfg = [true, true, true, true]) ∧
    (¬∃ k ∈ sectionNumbers, ((guard .setup).onSection 0 fun t => { t with retired := true }).isActive k = true) ∧
    (∃ k ∈ sectionNumbers, (guard .setup).isActive k = true) ∧
    { working with mode := .draining }.mode = .draining ∧ ∀ k ∈ { working with mode := .draining }.claims, k.phase = .held :=
  ⟨⟨serves _ rfl (by decide), serves _ rfl (by decide), serves _ rfl (by decide)⟩, by decide⟩

/-- Two claims of one arm under different numbers, or of two arms. -/
theorem differ (g : Guard) (h : (g.claims.map Claim.key).Nodup) : g.keysDiffer := h

theorem test_hyps_StopWithdrawsAndDrains :
    (state (guard .setup)).servesHost ∧ (state (guard .setup)).guard.mode ≠ .guarding ∧
    (state working).servesHost ∧ (state working).guard.mode = .guarding ∧ (state working).guard.keysDiffer ∧
    (state waitingFor).servesHost ∧ (state waitingFor).guard.mode = .guarding ∧ (state waitingFor).guard.keysDiffer :=
  ⟨serves _ rfl (by decide), by decide, serves _ rfl (by decide), rfl, differ _ (by decide), serves _ rfl (by decide), rfl,
    differ _ (by decide)⟩

/-- A guard none of whose slots is FINISHING, outside DRAINING. -/
theorem nothing_ends (g : Guard) (m : g.mode ≠ .draining)
    (h : ∀ x ∈ [Arm.A, .B], ∀ i ∈ [SlotIx.slot0, .slot1], ((g.arm x).slot i).code ≠ 3) : g.nothingEnds := by
  refine ⟨m, fun x i p e => h x (by cases x <;> decide) i (by cases i <;> decide) ?_⟩
  rw [e]
  rfl

/-- Arm A's waiting claim is the last of a plan that has ended its issuing. -/
def lastWaits : Guard := { waitingFor with
  a := { free with slot0 := .finishing { plan with issued := 1 } }
  claims := [claim .A 0#8 (.plan .slot0 0) .waiting c00] }

theorem test_hyps_StopWithdrawsAndDrains_notices :
    waitingFor.nothingEnds ∧ (∀ c ∈ waitingFor.claims, c.phase = .waiting → c.isPlan = true) ∧
    (state lastWaits).servesHost ∧ lastWaits.mode = .guarding ∧ lastWaits.keysDiffer ∧
    (let c := claim .A 0#8 (.plan .slot0 0) .waiting c00;
      lastWaits.claims = [c] ∧ c.phase = .waiting ∧ c.arm = .A ∧ c.origin = .plan .slot0 0) ∧
    (lastWaits.arm .A).slot .slot0 = .finishing { plan with issued := 1 } :=
  ⟨nothing_ends _ (by decide) (by decide), by decide, serves _ rfl (by decide), rfl, differ _ (by decide), by decide, rfl⟩

/-- What `Guard.trayInOrder` asks of the records, as a check on the lists that hold them. -/
def trayRecords (g : Guard) : Bool :=
  let cellsOf := fun x : Arm => ((g.claims.filter fun c => c.isHeld && c.arm = x).flatMap Claim.effective) ++ (g.arm x).vacate
  (cellsOf .A).all (fun c => !g.ownedBy .B c) && g.cfg.nc ≤ 32 && g.cfg.nr ≤ 24 && g.poisoned = [] &&
    (g.fences ++ g.a.vacate ++ g.b.vacate ++ g.claims.flatMap fun c => c.effective ++ c.reserved).all g.cfg.inGrid &&
    g.claims.all (fun c => c.phase ≠ .held || c.reserved = []) && g.keys.Nodup

theorem tray_of (g : Guard) (h : ∀ col < 32, ∀ row < 24, g.entryOf ⟨col, row⟩ = g.derive ⟨col, row⟩)
    (hr : trayRecords g = true) : g.trayInOrder := by
  simp only [trayRecords, Bool.and_eq_true, decide_eq_true_eq, List.all_eq_true, List.mem_append, List.mem_flatMap,
    List.mem_filter, Bool.or_eq_true, Bool.not_eq_true', ne_eq, decide_not, and_assoc] at hr
  obtain ⟨hA, hc, hn, hp, hg, hh, hk⟩ := hr
  refine ⟨fun c hc => h c.col hc.1 c.row hc.2, ?_, ⟨hc, hn, ?_, ?_, ?_, ?_, ?_⟩, ?_, hk⟩
  · rintro c ⟨ha, hb⟩
    simp only [Guard.ownedBy, Guard.heldBy, Bool.or_eq_true, List.any_eq_true, decide_eq_true_eq, Bool.and_eq_true,
      and_assoc] at ha
    exact absurd (hA c ha) (by simp [hb])
  · rw [hp]; intro c hc; exact absurd hc List.not_mem_nil
  · exact fun c m => hg c (.inl (.inl (.inl m)))
  · exact fun c m => hg c (.inl (.inl (.inr m)))
  · exact fun c m => hg c (.inl (.inr m))
  · exact fun c m => ⟨fun d hd => hg d (.inr ⟨c, m, .inl hd⟩), fun d hd => hg d (.inr ⟨c, m, .inr hd⟩)⟩
  · exact fun c m hp => (hh c m).resolve_left (by simp [hp])

theorem test_hyps_RestartClearsAndKeeps : (state working).servesHost ∧ storeWf (state working).guard.store = true :=
  ⟨serves _ rfl (by decide), by decide⟩

theorem test_hyps_RestartClearsAndKeeps_good : let s := state { working with findings := List.replicate 768 .good }
    s.servesHost ∧ s.goodReads (run (.restart 9#8 []) s) :=
  ⟨serves _ rfl (by decide), fun _ hf => List.eq_of_mem_replicate hf, by decide +kernel⟩

/-- RESTART at the head of the queue with another request behind it, whatever waits to be told, a notice or a reply having
left the port. -/
theorem test_hyps_RestartClearsAndKeeps_queued : ∀ reply, ∀ notices ∈ [[], [Notice.mode .setup .start]],
    let s := withSup { working with findings := List.replicate 768 .good } { Link.initial.sup with
      port := { PortState.initial with tx := some ⟨reply, []⟩ }
      slot := if reply then some ⟨0x82#8, 9#8, [0#8]⟩ else none
      queue := [⟨0x04#8, 9#8, []⟩, queued]
      notices := notices }
    s.guard.powered = true ∧ s.guard.mode ≠ .init ∧ storeWf s.guard.store = true ∧
      s.link.sup.port.tx = some ⟨reply, []⟩ ∧ (reply = true ∨ s.link.sup.slot = none) ∧ s.link.sup.refusals = [] ∧
      s.link.sup.queue = ⟨0x04#8, 9#8, []⟩ :: [queued] ∧ (run (.transmitEnd .supervisor) s).guard.mode = .setup := by
  decide +kernel

theorem test_hyps_RestartClearsAndKeeps_queued_good :
    let g := { working with findings := List.replicate 768 .good }
    let s := withSup g { Link.initial.sup with
      port := { PortState.initial with tx := some ⟨false, []⟩ }
      queue := [⟨0x04#8, 9#8, []⟩, queued] }
    s.goodReads (run (.transmitEnd .supervisor) s) :=
  ⟨fun _ hf => List.eq_of_mem_replicate hf, by decide +kernel⟩

/-- The payload of FENCE and UNFENCE for the whole of the small grid. -/
def wholeGrid : List Byte := [1#8, 0#8, 1#8, 0#8, 1#8, 0#8, 0#8]

/-- A guard with good reads to come has any number of them up to twenty. -/
theorem good_goodFor (g : Guard) (n : Nat) (h : n ≤ 20) : (good g).goodFor n :=
  ⟨List.replicate (20 - n) .good, by simp [good, List.replicate_append_replicate, Nat.add_sub_cancel' h]⟩

theorem test_hyps_FenceAndUnfence : (state (good working)).servesHost ∧ wholeGrid.length = 7 ∧
    shapeAt (good working).cfg wholeGrid 0 = some (.rect 0 1 0 1) ∧
    (good working).goodFor ((good working).draws ((Shape.rect 0 1 0 1).cells (good working).cfg)) :=
  ⟨serves _ rfl (by decide), rfl, by decide, good_goodFor _ _ (by decide)⟩

/-- The same guard with its held cell fenced, the fence pending. -/
def fenced : Guard := { working with
  fences := [c00]
  store := [(0, { Entry.free with owner := some .A, fencePending := true })] }

theorem test_hyps_FenceAndUnfence_fenced : (state (good fenced)).servesHost ∧ wholeGrid.length = 7 ∧
    shapeAt (good fenced).cfg wholeGrid 0 = some (.rect 0 1 0 1) ∧
    (good fenced).goodFor ((good fenced).draws ((Shape.rect 0 1 0 1).cells (good fenced).cfg)) :=
  ⟨serves _ rfl (by decide), rfl, by decide, good_goodFor _ _ (by decide)⟩

theorem test_hyps_FenceAndUnfence_bounced : (state (good waitingFor)).servesHost ∧
    storeWf waitingFor.store = true ∧ waitingFor.trayInOrder ∧ waitingFor.nothingEnds ∧
    (∀ c ∈ ([.fence 9#8 wholeGrid, .unfence 9#8 wholeGrid] : List Instr),
      (state (good waitingFor)).goodReads (run c (state (good waitingFor)))) ∧
    (let k := claim .A 0#8 (.plan .slot0 0) .waiting c00
     k ∈ waitingFor.claims ∧ k.phase = .waiting ∧ k.shape.cells cfg = [c00] ∧ (∀ d ∈ k.shape.cells cfg, d ∉ waitingFor.fences) ∧
       (∀ d ∈ waitingFor.claims, d.key ≠ k.key → d.phase = .held) ∧
       (waitingFor.arm .A).slot .slot0 = .active { plan with issued := 1, cursor := 1 }) ∧
    (run (.fence 9#8 wholeGrid) (state (good waitingFor))).guard.fences ≠ [] :=
  ⟨serves _ rfl (by decide), by decide, tray_of _ (by decide +kernel) (by decide), nothing_ends _ (by decide) (by decide),
    by intro c hc; rcases List.mem_pair.1 hc with e | e <;> subst e <;> exact goodReads_of _ _ (by decide +kernel),
    by decide, by decide +kernel⟩

/-- Arm A waits for its first two cells, the first of which arm B holds, and reserves them; the second is fenced as given. -/
def reserving (fences : CellSet) : Guard :=
  let own := [c00, c10].filter fun d => d ∉ fences
  (({ guard .guarding with
    fences := fences
    claims := [{ claim .A 0#8 .supervisor .waiting c00 with
        shape := .rect 0 1 0 0, effective := own, excluded := fences.length, reserving := .senior, reserved := own },
      claim .B 0#8 .supervisor .held c00] }).reindexCell c00).reindexCell c10

/-- FENCE and UNFENCE of the second cell form the claim anew with a cell less or a cell more. -/
theorem test_hyps_FenceAndUnfence_formed : ∀ p ∈ [([], Instr.fence 9#8 [1#8, 1#8, 1#8, 0#8, 0#8, 0#8, 0#8]),
      ([c10], .unfence 9#8 [1#8, 1#8, 1#8, 0#8, 0#8, 0#8, 0#8])],
    let g := reserving p.1
    (state (good g)).servesHost ∧ storeWf g.store = true ∧ g.trayInOrder ∧
      (state (good g)).goodReads (run p.2 (state (good g))) ∧ (∃ k ∈ g.claims, k.phase = .waiting) ∧
      ((run p.2 (state (good g))).guard.claims.map fun c => (c.phase, c.effective, c.reserved)) =
        [(.waiting, if p.1 = [] then [c00] else [c00, c10], [c00]), (.held, [c00], [])] := by
  intro p hp
  rcases List.mem_pair.1 hp with e | e <;> subst e <;>
    exact ⟨serves _ rfl (by decide), by decide, tray_of _ (by decide +kernel) (by decide), goodReads_of _ _ (by decide +kernel),
      by decide, by decide +kernel⟩

/-- LOAD_PLAN of one entry, for arm A and the slot choice AUTO. -/
def oneEntry : List Byte := [0x20#8, 7#8, 0#8, 1#8, 1#8, 1#8, 3#8, 0#8, 0#8, 0#8, 0#8, 0#8, 0#8, 0#8, 0#8, 0#8, 0#8]

theorem test_hyps_LoadPlanFillsSlot : (state (guard .setup)).servesHost ∧
    supervisorLengthOk 0x07 oneEntry = true ∧ armOf (u8 oneEntry 0 % 16) = some .A ∧
    slotChoiceOf (u8 oneEntry 0 / 16) = some .auto ∧ slotChoiceOf (u8 (oneEntry.set 0 0x10#8) 0 / 16) = some (.named .slot1) ∧
    1 ≤ u8 oneEntry 4 ∧ u8 oneEntry 4 ≤ 16 ∧
    parseShape (u8 (oneEntry.drop 5) 0) ((oneEntry.drop 5).drop 2) = some (.rect 0 0 0 0) ∧
    (Shape.rect 0 0 0 0).valid cfg.nc cfg.nr = true ∧ u8 (oneEntry.drop 5) 1 / 128 ≠ 1 ∧
    (supervisorLengthOk 0x07 (oneEntry.set 0 2#8) = true ∧ armOf (u8 (oneEntry.set 0 2#8) 0 % 16) = none) ∧
    (supervisorLengthOk 0x07 (oneEntry.set 0 0x30#8) = true ∧ slotChoiceOf (u8 (oneEntry.set 0 0x30#8) 0 / 16) = none) ∧
    (supervisorLengthOk 0x07 [0#8, 0#8, 0#8, 0#8, 0#8] = true ∧ u8 [0#8, 0#8, 0#8, 0#8, 0#8] 4 = 0) ∧
    (supervisorLengthOk 0x07 ([0#8, 0#8, 0#8, 0#8, 17#8] ++ List.replicate 204 0#8) = true ∧
      16 < u8 ([0#8, 0#8, 0#8, 0#8, 17#8] ++ List.replicate 204 0#8) 4) ∧
    (supervisorLengthOk 0x07 (oneEntry.set 5 0#8) = true ∧
      parseShape (u8 ((oneEntry.set 5 0#8).drop 5) 0) (((oneEntry.set 5 0#8).drop 5).drop 2) = none) :=
  ⟨serves _ rfl (by decide), by decide +kernel⟩

theorem test_hyps_LoadPlanFillsSlot_slots :
    (guard .setup).a.slot0 = .empty ∧ working.a.slot0.isActive = true ∧ working.a.slot1 = .empty ∧ working.a.slot0 ≠ .empty ∧
    (let a := { free with slot0 := .loaded plan, slot1 := .active plan };
      a.slot0.isLoaded = true ∧ a.slot1 ≠ .empty) ∧
    (let a := { free with slot0 := .active plan, slot1 := .loaded plan };
      ¬(a.slot0 = .empty ∨ a.slot0.isLoaded = true) ∧ a.slot1.isLoaded = true) ∧
    (let a := { free with slot0 := .finishing plan, slot1 := .active plan };
      a.slot0 = .finishing plan ∧ ¬(a.slot0 = .empty ∨ a.slot0.isLoaded = true) ∧
        ¬(a.slot1 = .empty ∨ a.slot1.isLoaded = true)) := by decide

/-- The same entry at priority 11 with a pick point (x, 0). -/
def pickEntry (x : List Byte) : List Byte :=
  [0x20#8, 7#8, 0#8, 1#8, 1#8, 1#8, 0x8B#8, 0#8, 0#8, 0#8, 0#8, 0#8, 0#8] ++ x ++ [0#8, 0#8]

/-- In its cell the pick point is valid and the entry clamped; in the next cell, and off the grid, it is not valid. -/
theorem test_hyps_LoadPlanFillsSlot_pick :
    (∀ p ∈ [pickEntry [50#8, 0#8], pickEntry [250#8, 0#8], pickEntry [255#8, 255#8]],
      supervisorLengthOk 0x07 p = true ∧ u8 (p.drop 5) 1 = 128 + 11) ∧
    cfg.cellAt 50 0 = some c00 ∧ c00 ∈ (Shape.rect 0 0 0 0).cells cfg ∧ cfg.cellAt 250 0 = some c10 ∧
    c10 ∉ (Shape.rect 0 0 0 0).cells cfg ∧ cfg.cellAt (-1) 0 = none := by decide +kernel

theorem test_pick_points :
    let s := state (guard .setup)
    let replies := fun p => replyOf (run (.loadPlan 9#8 p) s).link.sup.port
    replies (pickEntry [50#8, 0#8]) = replyOf (s.replied 0x07#8 9#8 (.ok [0#8, 1#8, 1#8, 0#8])).link.sup.port ∧
      (∀ p ∈ [pickEntry [250#8, 0#8], pickEntry [255#8, 255#8]],
        replies p = replyOf (s.replied 0x07#8 9#8 (.refuseWith .range 0)).link.sup.port) := by decide +kernel

/-- The guard with a plan behind the active one. -/
def behind : Guard := { working with a := { working.a with slot1 := .loaded plan } }

theorem test_hyps_DropPlanActsOnSlot : (state behind).servesHost ∧ behind.keysDiffer ∧
    (behind.arm .A).activePlan = some (.slot0, { plan with issued := 1, cursor := 1 }) ∧
    (behind.arm .A).slot (SlotIx.other .slot0) = .loaded plan ∧
    [0#8, 0#8].length = 2 ∧ armOf (u8 [0#8, 0#8] 0) = some .A ∧ u8 [0#8, 0#8] 1 = 0 ∧
    armOf (u8 [2#8, 0#8] 0) = none ∧ 1 < u8 [0#8, 2#8] 1 ∧
    armOf (u8 [1#8, 0#8] 0) = some .B ∧ (behind.arm .B).activePlan = none :=
  ⟨serves _ rfl (by decide), differ _ (by decide), by decide⟩

theorem test_hyps_DropPlanActsOnSlot_loaded : (state behind).servesHost ∧ armOf (2#8).toNat = none ∧
    armOf (1#8).toNat = some .B ∧ (behind.arm .B).loadedPlan = none ∧
    armOf (0#8).toNat = some .A ∧ (behind.arm .A).loadedPlan = some (.slot1, plan) :=
  ⟨serves _ rfl (by decide), by decide⟩

theorem test_hyps_DropPlanActsOnSlot_notices : behind.mode ≠ .draining ∧
    (∀ c ∈ behind.claims, c.phase = .waiting → c.fromSlot .A .slot0 = true) ∧ plan.missed ≤ 65535 ∧
    (let g := { waitingFor with claims := waitingFor.claims.take 1 };
      (∀ c ∈ g.claims, c.phase = .waiting → c.fromSlot .A .slot0 = true) ∧
        (g.claims.any fun c => c.isHeld && c.fromSlot .A .slot0) = false ∧
        (g.arm .A).activePlan = some (.slot0, { plan with issued := 1, cursor := 1 })) := by decide

/-- CLAIM_FOR arm A of the cell (0, 0). -/
def claimFirst : List Byte := [0#8, 1#8, 0#8, 0#8, 0#8, 0#8, 0#8, 0#8]

/-- The guard with its first cell as given. -/
def firstCell (m : Mode) (e : Entry) : Guard := { guard m with store := [(0, e)] }

theorem test_hyps_ClaimForMakesClaim :
    (∀ e, (state (good (firstCell .setup e))).servesHost ∧ (good (firstCell .setup e)).claims = []) ∧
    claimFirst.length = 8 ∧ armOf (u8 claimFirst 0) = some .A ∧ shapeAt cfg claimFirst 1 = some (.rect 0 0 0 0) ∧
    (∀ e, ∀ n ≤ 20, (good (firstCell .setup e)).goodFor n) ∧ (Shape.rect 0 0 0 0).cells cfg = [c00] ∧
    (good (guard .setup)).draws [c00] = 1 ∧
    Entry.isExcluded { Entry.free with hostFence := true } = true ∧
    (Entry.free.isExcluded = false ∧ Entry.free.availableTo .A = true) ∧
    (Entry.isExcluded { Entry.free with owner := some .B } = false ∧
      Entry.availableTo { Entry.free with owner := some .B } .A = false) ∧
    (working.claimCount .A < 2 ∧ (∀ c ∈ working.claims, c.phase = .held ∧ c.reserving = .no) ∧
      ∃ c ∈ working.claims, c.arm = .A ∧ c.number = (working.arm .A).nextNumber) :=
  ⟨fun _ => ⟨serves _ rfl Mode.noConfusion, rfl⟩, rfl, by decide, by decide, fun _ _ h => good_goodFor _ _ h, by decide⟩

/-- A claim for the cell (0, 0) that waits at a priority, with what it reserves. -/
def asks (x : Arm) (priority : Nat) (r : Reserving) (reserved : CellSet) : Claim :=
  { claim x 0#8 .supervisor .waiting c00 with priority := priority, reserving := r, reserved := reserved }

/-- Arm A's held PLAN claim for the cell (1, 0). -/
def heldPlan : Claim := claim .A 1#8 (.plan .slot0 0) .held c10

/-- Two claims, one of each arm, that wait beside some held ones, the cell (0, 0) vacating for arm B or free; the map is
written from the records. -/
def contending (m : Mode) (held : List Claim) (vacate : CellSet) (a b : Claim) : Guard :=
  (({ guard m with
    claims := held ++ [a, b]
    a := { free with slot0 := .active { plan with issued := 1, cursor := 1 } }
    b := { free with
      vacate := vacate
      calculator := { free.calculator with zone := .inside } } }).reindexCell c00).reindexCell c10

/-- The claims of arm A and arm B that meet the tests below: granted first, kept waiting, reserving, as senior and junior. -/
def contests : List (CellSet × Claim × Claim) :=
  [([], asks .A 7 .no [], asks .B 5 .no []), ([c00], asks .A 5 .no [], asks .B 5 .no []),
    ([c00], asks .A 7 .no [], asks .B 5 .no []), ([c00], asks .A 7 .senior [c00], asks .B 7 .junior [])]

/-- In SETUP with no held claim, in DRAINING with the held PLAN claim that DRAINING lasts for. -/
theorem test_hyps_CandidatesAreTakenInOrder : ∀ m ∈ [(Mode.setup, []), (.draining, [heldPlan])], ∀ p ∈ contests,
    let g := contending m.1 m.2 p.1 p.2.1 p.2.2
    (state (good g)).servesHost ∧ storeWf g.store = true ∧ g.trayInOrder ∧ g.claimsFitMode ∧
      g.claims.filter Claim.isWaiting = [p.2.1, p.2.2] ∧
      (∀ c ∈ g.claims, c.phase = .held → c.reserving = .no) ∧ (∀ c ∈ g.claims, c.reserving = .no → c.reserved = []) ∧
      (p.2.2.priority < p.2.1.priority ∨ (p.2.1.priority = p.2.2.priority ∧ g.lastGranted ≠ .A)) ∧
      (state (good g)).goodReads (run (.start 9#8 []) (state (good g))) := by
  intro m hm p hp
  simp only [contests, List.mem_cons, List.not_mem_nil, or_false] at hm hp
  rcases hm with e | e <;> subst e <;> rcases hp with e | e | e | e <;> subst e <;>
    exact ⟨serves _ rfl (by decide), by decide, tray_of _ (by decide +kernel) (by decide), ⟨by decide, by decide⟩, by decide,
      by decide, by decide, by decide, goodReads_of _ _ (by decide +kernel)⟩

theorem test_hyps_CandidatesAreTakenInOrder_start :
    let c := (guard .setup).cfg
    c.x0 + (c.nc : Int) * c.pitch ≤ 32767 ∧ c.y0 + (c.nr : Int) * c.pitch ≤ 32767 ∧ c.a.tMin < c.a.tGap ∧
      c.b.tMin < c.b.tGap ∧ (guard .setup).someActive := ⟨by decide, by decide, by decide, by decide, 0, by decide, by decide⟩

theorem test_hyps_CandidatesAreTakenInOrder_release : ∀ p ∈ contests,
    let g := contending .draining [heldPlan] p.1 p.2.1 p.2.2
    let released := { g with claims := g.claims.filter fun d => d.key ≠ heldPlan.key }
    (state (good g)).servesArm .A ∧ g.claim? ⟨.A, 1#8⟩ = some heldPlan ∧ (g.arm .A).calculator.zone = .clear ∧
      g.trayInOrder ∧ released.claims.filter Claim.isWaiting = [p.2.1, p.2.2] ∧
      (c10 ∈ heldPlan.effective ∧ released.ownedBy .A c10 = false ∧ released.ownedBy .B c10 = false ∧
        c10 ∉ released.fences ∧ released.isRetired c10.sec = false ∧ c10 ∉ released.poisoned) ∧
      (state (good g)).goodReads (run (.release .A 5#8 [1#8, 0#8]) (state (good g))) := by
  intro p hp
  simp only [contests, List.mem_cons, List.not_mem_nil, or_false] at hp
  rcases hp with e | e | e | e <;> subst e <;>
    exact ⟨servesArms _ rfl (by decide) _, by decide, rfl, tray_of _ (by decide +kernel) (by decide), by decide, by decide,
      goodReads_of _ _ (by decide +kernel)⟩

theorem test_hyps_RevokeEndsEveryClaim : (state working).servesHost ∧ [2#8].length = 1 ∧ armOf (u8 [2#8] 0) = none ∧
    armOf (u8 [0#8] 0) = some .A ∧ working.keysDiffer ∧
    Guard.keysDiffer { working with a := { working.a with calculator := { Calculator.initial with zone := .inside } } } :=
  ⟨serves _ rfl (by decide), rfl, by decide, by decide, differ _ (by decide), differ _ (by decide)⟩

theorem test_hyps_RevokeEndsEveryClaim_notices : (∀ c ∈ working.claims, c.arm = .A) ∧ working.nothingEnds ∧
    (state (good working)).goodReads (run (.revoke 9#8 [0#8]) (state (good working))) :=
  ⟨by decide, nothing_ends _ (by decide) (by decide), goodReads_of _ _ (by decide +kernel)⟩

/-- Where REVOKED is newly latched and where it is not, the arm INSIDE or UNKNOWN. -/
theorem test_hyps_RevokeEndsEveryClaim_latch : ∀ z ∈ [Zone.inside, .unknown, .clear],
    let g := good { working with a := { working.a with calculator := { Calculator.initial with zone := z } } }
    let t := run (.revoke 9#8 [0#8]) (state g)
    g.mode ≠ .init ∧ (g.arm .A).unit.sources.revoked = false ∧ t.guard.reads = g.reads ∧
      (t.guard.arm .A).unit.sources.revoked = decide (z = .inside) := by decide +kernel

theorem test_hyps_ClearFaultsTestsConditions : (state working).servesHost ∧ [2#8, 0#8, 0#8].length = 3 ∧
    armOf (u8 [2#8, 0#8, 0#8] 0) = none ∧ armOf (u8 [0#8, 255#8, 1#8] 0) = some .A ∧ working.levelAgrees .A :=
  ⟨serves _ rfl (by decide), rfl, by decide, by decide, rfl⟩

/-- Where the level falls: REACH alone holds arm A, and clears; the hold timer stops. -/
theorem test_hyps_ClearFaultsTestsConditions_fall :
    let g := reached.onUnit .A fun u => { u with holdTimer := some 9 }
    let u := ((run (.clearFaults 9#8 [0#8, 255#8, 1#8]) (state g)).guard.arm .A).unit
    (state g).servesHost ∧ armOf (u8 [0#8, 255#8, 1#8] 0) = some .A ∧ g.levelAgrees .A ∧
      u.level.code < (g.arm .A).unit.level.code ∧ u.slowTimer = none ∧ u.holdTimer = none :=
  ⟨serves _ rfl (by decide), by decide, rfl, by decide +kernel⟩

theorem test_hyps_StatusAndRowReports : (state (good working)).servesHost ∧
    (good working).goodFor ((good working).draws (good working).cfg.gridCells) :=
  ⟨serves _ rfl (by decide), good_goodFor _ _ (by decide)⟩

theorem test_hyps_StatusAndRowReports_row : (state (good working)).servesHost ∧ (good working).cfg.nr ≤ (2#8).toNat ∧
    (1#8).toNat < (good working).cfg.nr ∧
    (good working).goodFor ((good working).draws ((List.range 2).map fun c => (⟨c, (1#8).toNat⟩ : Cell))) :=
  ⟨serves _ rfl (by decide), by decide, by decide, good_goodFor _ _ (by decide)⟩

theorem test_hyps_StatusAndRowReports_code : (∀ e ∈ [Entry.free, { Entry.free with owner := some .A },
    { Entry.free with owner := some .B, vacating := true, fencePending := true, reservedFor := some .A },
    { Entry.free with faultFence := .retired, hostFence := true }], e.code < 256) ∧
    Entry.code { Entry.free with owner := some .B, vacating := true, fencePending := true, reservedFor := some .A } = 0x1E := by
  decide

theorem test_hyps_CounterRequests : (state working).servesHost ∧
    [2#8, 0#8, 0#8, 0#8, 0#8].length = 5 ∧ armOf (u8 [2#8, 0#8, 0#8, 0#8, 0#8] 0) = none ∧
    armOf (u8 [0#8, 0#8, 16#8, 0#8, 254#8] 0) = some .A ∧
    (sectionNumbers.find? fun i => badSelection (u8 [0#8, 0#8, 16#8, 0#8, 254#8] (i + 1))) = some 1 ∧
    (∀ i < 4, badSelection (u8 [0#8, 0#8, 15#8, 255#8, 14#8] (i + 1)) = false) ∧
    u8 [0#8, 0#8, 15#8, 255#8, 14#8] (2 + 1) = 255 ∧
    countEventOf (u8 [0#8, 0#8, 15#8, 255#8, 14#8] (1 + 1)) = some .off := ⟨serves _ rfl (by decide), by decide⟩

theorem test_hyps_SampleIsAccepted : (state (good working)).servesArm .A ∧ sampleLengthOk deep = true ∧
    sampleLengthOk above = true ∧
    (((good working).arm .A).calculator.sample (good working).cfg .A (parseSample above)).zone ≠ .inside ∧
    (((good working).arm .A).calculator.sample (good working).cfg .A (parseSample deep)).zone = .inside ∧
    (good working).goodFor ((good working).draws
      (((good working).arm .A).calculator.sample (good working).cfg .A (parseSample deep)).cells) :=
  ⟨servesArms _ rfl (by decide) _, by decide, by decide, by decide, by decide, good_goodFor _ _ (by decide)⟩

theorem test_hyps_SampleIsAccepted_good :
    (state (good working)).goodReads (run (.sample .A 5#8 deep) (state (good working))) ∧ working.keysDiffer ∧
    working.nothingEnds ∧ ∀ d ∈ working.claims, d.phase = .held :=
  ⟨goodReads_of _ _ (by decide +kernel), differ _ (by decide), nothing_ends _ (by decide) (by decide), by decide⟩

/-- A sample in cells it does not hold raises arm A to HOLD, which withdraws its waiting claim. -/
theorem test_hyps_SampleIsAccepted_withdrawn :
    let s := state (good waitingFor)
    let t := run (.sample .A 5#8 deep) s
    s.servesArm .A ∧ s.goodReads t ∧ waitingFor.keysDiffer ∧ waitingFor.nothingEnds ∧
      (∀ d ∈ waitingFor.claims, d.phase = .held ∨
        (d.arm = .A ∧ d.isPlan = true ∧ (waitingFor.arm .A).unit.level.code < 2 ∧ 2 ≤ (t.guard.arm .A).unit.level.code)) ∧
      t.link.a.notices = [.withdrawn 0#8 (.plan .slot0 0)] :=
  ⟨servesArms _ rfl (by decide) _, goodReads_of _ _ (by decide +kernel), differ _ (by decide),
    nothing_ends _ (by decide) (by decide), by decide +kernel, by decide +kernel⟩

/-- A sample in cells nobody owns raises arm A from NONE to HOLD and starts its hold timer. -/
theorem test_hyps_SampleIsAccepted_timers :
    let u := ((run (.sample .A 5#8 deep) (state (good working))).guard.arm .A).unit
    u.level = .hold ∧ u.slowTimer = none ∧ u.holdTimer = some (working.now + (working.cfg.arm .A).tHold) := by
  decide +kernel

/-- Arm A holds (0, 0), and a cell its footprint leaves is vacating. -/
def leaving : Guard := { working with
  a := { working.a with
    vacate := [c10]
    intake := ⟨none, some 0, some 0#8, .running, none⟩
    counters := { working.a.counters with selectable := ⟨⟨.samplesAccepted, 0⟩, ⟨.samplesEarly, 0⟩, ⟨.samplesLost, 0⟩,
      ⟨.velocityClamped, 0⟩⟩ } }
  claims := [{ claim .A 0#8 (.plan .slot0 0) .held c00 with entered := false }]
  cfg := { cfg with a := { cfg.a with radius := 0 } } }

theorem test_hyps_SampleSetsFlagsAndCounts :
    (state (good leaving)).servesArm .A ∧ sampleLengthOk deep = true ∧ leaving.keysDiffer ∧
    ((leaving.arm .A).calculator.sample leaving.cfg .A (parseSample deep)).footprint = some ⟨0, 0, 0, 0⟩ ∧
    (leaving.arm .A).intake.lastTime = some 0 ∧ leaving.now - 0 < (leaving.cfg.arm .A).tMin ∧
    (∀ d ∈ leaving.claims, d.phase = .held) ∧
    (state (good leaving)).goodReads (run (.sample .A 5#8 deep) (state (good leaving))) :=
  ⟨servesArms _ rfl (by decide) _, by decide, differ _ (by decide), by decide, rfl, by decide, by decide,
    goodReads_of _ _ (by decide +kernel)⟩

/-- The working arm inside the guarded volume. -/
def inTray : Guard :=
  { working with a := { working.a with calculator := ⟨.inside, some ⟨0, 199, 0, 199⟩, some ⟨0, 0, 0, 0⟩, 0⟩ } }

theorem test_hyps_ClearSampleCompletesClaims : (state inTray).servesArm .A ∧ sampleLengthOk above = true ∧
    (inTray.arm .A).calculator.zone = .inside ∧
    ((inTray.arm .A).calculator.sample inTray.cfg .A (parseSample above)).zone = .clear ∧
    (let c := claim .A 0#8 (.plan .slot0 0) .held c00;
      c ∈ inTray.claims ∧ c.arm = .A ∧ c.phase = .held ∧ c.entered = true) :=
  ⟨servesArms _ rfl (by decide) _, by decide, by decide, by decide, by decide⟩

theorem test_hyps_ClearSampleCompletesClaims_good : inTray.keysDiffer ∧
    (inTray.arm .A).slot .slot0 = .active { plan with issued := 1, cursor := 1 } ∧
    (state (good inTray)).goodReads (run (.sample .A 5#8 above) (state (good inTray))) ∧
    (let g := { inTray with claims := [{ claim .A 0#8 (.plan .slot0 0) .held c00 with entered := false }] };
      ∀ c ∈ g.claims, c.arm = .A ∧ c.phase = .held ∧ c.entered = false) ∧
    (let c : Counter := ⟨.picks, 4294967295⟩; c.selection = .picks ∧ c.value ≤ 4294967295) :=
  ⟨differ _ (by decide), rfl, goodReads_of _ _ (by decide +kernel), by decide, by decide⟩

theorem test_hyps_SampleIsNotAccepted :
    (state working).guard.powered = true ∧ ((state working).link.arm .A).replies.length < 4 ∧
    (state working).guard.mode ≠ .init ∧ sampleLengthOk (deep ++ [0#8]) = false ∧
    State.reset.guard.powered = true ∧ (State.reset.link.arm .A).replies.length < 4 ∧ State.reset.guard.mode = .init := by
  decide

/-- The guard with arm A's plan and its first cell as given. -/
def asking (e : Entry) : Guard := { firstCell .guarding e with a := { free with slot0 := .active plan } }

theorem test_hyps_RequestMakesClaim : (∀ e, (state (good (asking e))).servesArm .A) ∧ (∀ e, ∀ n ≤ 20, (good (asking e)).goodFor n) ∧
    (let g := good (asking .free);
      g.mode = .guarding ∧ (g.arm .A).unit.level.atLeastHold = false ∧ (g.arm .A).activePlan = some (.slot0, plan) ∧
      g.claims = [] ∧ plan.entries[plan.cursor]? = some ⟨.rect 0 0 0 0, 3, none⟩) ∧
    (Shape.rect 0 0 0 0).cells cfg = [c00] ∧ (good (asking .free)).draws [c00] = 1 ∧
    (Entry.free.isExcluded = false ∧ Entry.free.availableTo .A = true) ∧
    Entry.isExcluded { Entry.free with owner := some .B } = false ∧
    Entry.availableTo { Entry.free with owner := some .B } .A = false ∧ 3 < 7 ∧
    (working.claimCount .A < 2 ∧ (∀ c ∈ working.claims, c.phase = .held ∧ c.reserving = .no) ∧
      ∃ c ∈ working.claims, c.arm = .A ∧ c.number = (working.arm .A).nextNumber) :=
  ⟨fun _ => servesArms _ rfl Mode.noConfusion _, fun _ _ h => good_goodFor _ _ h, by decide⟩

/-- The plan of `asking` at priority 7 with one entry: its one issue is its last. -/
def lastPlan : Plan := newPlan 7 1 [⟨.rect 0 0 0 0, 7, none⟩]

theorem test_hyps_RequestMakesClaim_last :
    let g := good { firstCell .guarding { Entry.free with owner := some .B } with
      a := { free with slot0 := .active lastPlan, slot1 := .loaded plan } }
    (state g).servesArm .A ∧ (g.arm .A).activePlan = some (.slot0, lastPlan) ∧ g.claims = [] ∧
      lastPlan.entries[lastPlan.cursor]? = some ⟨.rect 0 0 0 0, 7, none⟩ ∧ g.goodFor 2 ∧
      ((run (.request .A 5#8 []) (state g)).guard.arm .A).slot0.code = 3 ∧
      ((run (.request .A 5#8 []) (state g)).guard.arm .A).slot1 = .active plan ∧
      ((run (.request .A 5#8 []) (state g)).guard.claims.map fun c => (c.phase, c.reserving, c.reserved)) =
        [(.waiting, .senior, [c00])] :=
  ⟨servesArms _ rfl (by decide) _, by decide, rfl, by decide, good_goodFor _ _ (by decide), by decide +kernel, by decide +kernel,
    by decide +kernel⟩

theorem test_hyps_RequestIsRefused :
    ((state (guard .setup)).servesArm .A ∧ (state (good (asking { Entry.free with hostFence := true }))).servesArm .A) ∧
    (guard .setup).mode ≠ .guarding ∧
    (let g := { guard .guarding with a := { free with unit := { free.unit with level := .hold } } };
      g.mode = .guarding ∧ (g.arm .A).unit.level.atLeastHold = true) ∧
    (let g := guard .guarding;
      g.mode = .guarding ∧ (g.arm .A).unit.level.atLeastHold = false ∧ (g.arm .A).activePlan = none) ∧
    2 ≤ Guard.claimCount { working with claims := [claim .A 0#8 .supervisor .held c00,
          claim .A 1#8 .supervisor .held c10] } .A ∧
    (let g := good (asking { Entry.free with hostFence := true });
      g.claimCount .A < 2 ∧ plan.entries[plan.cursor]? = some ⟨.rect 0 0 0 0, 3, none⟩ ∧
        plan.cursor + 1 < plan.entries.length ∧ plan.issued < 65534 ∧
        (∀ c ∈ (Shape.rect 0 0 0 0).cells g.cfg, (g.entryOf c).isExcluded = true) ∧
        g.draws ((Shape.rect 0 0 0 0).cells g.cfg) = 1) ∧
    (good (asking { Entry.free with hostFence := true })).goodFor 1 :=
  ⟨⟨servesArms _ rfl (by decide) _, servesArms _ rfl (by decide) _⟩, by decide, by decide, by decide, by decide, by decide,
    good_goodFor _ _ (by decide)⟩

/-- The guard with this plan at its second entry, whose one cell the host has fenced, and this slot beside it. -/
def fencedEntry (q : Plan) (w : Slot) : Guard := good { guard .guarding with
  fences := [c10]
  store := [(1, { Entry.free with hostFence := true })]
  a := { free with slot0 := .active { q with cursor := 1 }, slot1 := w } }

/-- A plan for each row of EMPTY: the last issue that the count can hold, the last entry of a pass that is not the last, of
the last pass, and of an open-ended plan with another LOADED behind it or with none. -/
theorem test_hyps_RequestIsRefused_rows :
    let last := { plan with issued := 1, cursor := 1 }
    let cells := (Shape.rect 1 1 0 0).cells cfg
    (∀ q ∈ [{ last with issued := 65534 }, last, { last with passes := 2 }, { last with passes := 0 }],
      ∀ w ∈ [Slot.empty, .loaded plan],
        let g := fencedEntry q w;
        g.mode = .guarding ∧ (g.arm .A).unit.level.atLeastHold = false ∧ (g.arm .A).activePlan = some (.slot0, q) ∧
          g.claimCount .A < 2 ∧ q.entries[q.cursor]? = some ⟨.rect 1 1 0 0, 3, some (250, 10)⟩ ∧
          (∀ c ∈ cells, (g.entryOf c).isExcluded = true) ∧ g.draws cells = 1 ∧ g.slotHasClaim .A .slot0 = false) ∧
      last.issued + 1 < 65535 ∧ last.entries.length ≤ last.cursor + 1 ∧
      (let g := { fencedEntry last .empty with claims := [claim .A 0#8 (.plan .slot0 0) .held c00] };
        g.slotHasClaim .A .slot0 = true ∧ g.claimCount .A < 2) := by decide +kernel

theorem test_hyps_RequestIsRefused_rows_served (q : Plan) (w : Slot) :
    (state (fencedEntry q w)).servesArm .A ∧ (fencedEntry q w).goodFor 1 :=
  ⟨servesArms _ rfl Mode.noConfusion _, good_goodFor _ _ (by decide)⟩

theorem test_hyps_SkipIssuesEntry :
    ((state (guard .setup)).servesArm .A ∧ (state (guard .guarding)).servesArm .A ∧ (state (asking .free)).servesArm .A) ∧
    (guard .setup).mode ≠ .guarding ∧ (guard .guarding).mode = .guarding ∧ ((guard .guarding).arm .A).activePlan = none ∧
    ((asking .free).arm .A).activePlan = some (.slot0, plan) ∧ plan.cursor + 1 < plan.entries.length ∧ plan.issued < 65534 ∧
    (let q := { plan with issued := 1, cursor := 1, skipped := 1 };
      let g := { guard .guarding with a := { free with slot0 := .active q, slot1 := .loaded plan } };
      (g.arm .A).activePlan = some (.slot0, q) ∧ q.entries.length ≤ q.cursor + 1 ∧ q.passes ≠ 0 ∧
        q.passes ≤ sat16 (q.passesCompleted + 1) ∧ g.slotHasClaim .A .slot0 = false ∧
        (g.arm .A).slot (SlotIx.other .slot0) = .loaded plan) :=
  ⟨⟨servesArms _ rfl (by decide) _, servesArms _ rfl (by decide) _, servesArms _ rfl (by decide) _⟩, by decide⟩

/-- One plan for each row of the table at the last entry of its pass, and for the last issue that the count can hold. -/
theorem test_hyps_SkipIssuesEntry_rows :
    let last := { plan with issued := 1, cursor := 1, skipped := 1 }
    let passes := fun q : Plan => min 65535 (q.passesCompleted + 1)
    (∀ q ∈ [last, { last with passes := 2 }, { last with passes := 0 }], q.issued + 1 < 65535 ∧ q.entries.length ≤ q.cursor + 1) ∧
      (last.passes ≠ 0 ∧ last.passes ≤ passes last) ∧
      ({ last with passes := 2 }.passes ≠ 0 ∧ passes { last with passes := 2 } < { last with passes := 2 }.passes) ∧
      (Slot.loaded plan).isLoaded = true ∧ Slot.empty.isLoaded = false ∧
      { plan with issued := 65533 }.issued + 1 < 65535 ∧ 65535 ≤ { plan with issued := 65534 }.issued + 1 := by decide

theorem test_hyps_ReleaseEndsHeldClaim : ((state working).servesArm .A ∧ (state waitingFor).servesArm .A) ∧
    1 < (2#8).toNat ∧ (1#8).toNat ≤ 1 ∧
    working.claim? ⟨.A, 0#8⟩ = some (claim .A 0#8 (.plan .slot0 0) .held c00) ∧
    working.claim? ⟨.A, 1#8⟩ = none ∧
    waitingFor.claim? ⟨.A, 0#8⟩ = some (claim .A 0#8 (.plan .slot0 0) .waiting c00) :=
  ⟨⟨servesArms _ rfl (by decide) _, servesArms _ rfl (by decide) _⟩, by decide⟩

/-- Arm A's held claim is the last of a plan that has ended its issuing, in DRAINING. -/
def lastHeld : Guard := { working with
  mode := .draining
  a := { free with slot0 := .finishing { plan with issued := 1 } } }

theorem test_hyps_ReleaseEndsHeldClaim_good :
    (state (good working)).goodReads (run (.release .A 5#8 [0#8, 1#8]) (state (good working))) ∧ working.keysDiffer ∧
    (working.arm .A).slot .slot0 = .active { plan with issued := 1, cursor := 1 } ∧
    (state (good lastHeld)).servesArm .A ∧ lastHeld.keysDiffer ∧
    (lastHeld.arm .A).slot .slot0 = .finishing { plan with issued := 1 } ∧
    (∀ d ∈ lastHeld.claims.filter fun d => d.key ≠ ⟨.A, 0#8⟩, d.phase = .held ∧ d.fromSlot .A .slot0 = false) ∧
    (let c := claim .A 1#8 (.plan .slot0 1) .held c10;
      c.key ≠ ⟨.A, 0#8⟩ ∧ c.fromSlot .A .slot0 = true ∧ c.phase = .held) :=
  ⟨goodReads_of _ _ (by decide +kernel), differ _ (by decide), rfl, servesArms _ rfl (by decide) _, differ _ (by decide), rfl,
    by decide, by decide⟩

theorem test_hyps_GapExpiryLatches :
    working.powered = true ∧ working.due (working.arm .A).intake.gapTimer = false ∧
    (let g := { working with a := { working.a with intake := ⟨none, some 0, none, .running, some 0⟩ } };
      g.powered = true ∧ g.due (g.arm .A).intake.gapTimer = true) := by decide

theorem test_hyps_GapExpiryLatches_notices :
    let g := { waitingFor with a := { waitingFor.a with intake := ⟨none, some 0, none, .running, some 0⟩ } }
    g.due (g.arm .A).intake.gapTimer = true ∧ g.mode ≠ .init ∧ g.keysDiffer ∧ g.nothingEnds ∧
      ∀ k ∈ g.claims, k.phase = .waiting → k.arm = .A ∧ k.isPlan = true :=
  ⟨by decide, by decide, differ _ (by decide), nothing_ends _ (by decide) (by decide), by decide⟩

theorem test_hyps_GapExpiryLatches_timers :
    let g := { waitingFor with a := { waitingFor.a with intake := ⟨none, some 0, none, .running, some 0⟩ } }
    let u := ((run (.gapTimerExpiry .A) (state g)).guard.arm .A).unit
    (g.arm .A).unit.level.code < 2 ∧ u.level = .hold ∧ u.slowTimer = none ∧
      u.holdTimer = some (g.now + (g.cfg.arm .A).tHold) := by decide +kernel

theorem test_hyps_WaitingTimersExpire :
    waitingFor.powered = true ∧ waitingFor.keysDiffer ∧
    (let k := claim .A 0#8 (.plan .slot0 0) .waiting c00;
      waitingFor.claim? ⟨.A, 0#8⟩ = some k ∧ k.phase = .waiting ∧ waitingFor.due k.aging = true ∧
        waitingFor.due k.timeout = true) ∧
    waitingFor.claim? ⟨.A, 1#8⟩ = none ∧
    waitingFor.claim? ⟨.B, 0#8⟩ = some (claim .B 0#8 .supervisor .held c00) ∧
    (let k := claim .A 0#8 (.plan .slot0 0) .waiting c00;
      let g := { waitingFor with claims := [k] };
      g.claims = [k] ∧ g.claim? ⟨.A, 0#8⟩ = some k ∧ k.origin = .plan .slot0 0 ∧
        (g.arm .A).slot .slot0 = .active { plan with issued := 1, cursor := 1 } ∧ g.mode = .guarding) :=
  ⟨rfl, differ _ (by decide), by decide⟩

theorem test_hyps_WaitingTimersExpire_good :
    (waitingFor.arm .A).slot .slot0 = .active { plan with issued := 1, cursor := 1 } ∧
    (state (good waitingFor)).goodReads (run (.timeoutTimerExpiry .A 0#8) (state (good waitingFor))) ∧
    (asks .A 6 .no []).priority + 1 = 7 ∧ (asks .A 5 .no []).priority + 1 < 7 :=
  ⟨rfl, goodReads_of _ _ (by decide +kernel), by decide⟩

theorem test_hyps_WaitingTimersExpire_good_aging :
    (state (good waitingFor)).goodReads (run (.agingTimerExpiry .A 0#8) (state (good waitingFor))) ∧
    (run (.agingTimerExpiry .A 0#8) (state (good waitingFor))).guard.claims.map (·.priority) = [4, 3] :=
  ⟨goodReads_of _ _ (by decide +kernel), by decide +kernel⟩

/-- A free arm at a level, with both escalation timers due and a last speed. -/
def timed (l : Level) (speed : Nat) : Guard := { guard .guarding with a := { free with
  unit := { free.unit with level := l, slowTimer := some 0, holdTimer := some 0 }
  calculator := { free.calculator with lastSpeed := speed } } }

theorem test_hyps_EscalationTimersExpire :
    working.powered = true ∧ working.due (working.arm .A).unit.slowTimer = false ∧
    working.due (working.arm .A).unit.holdTimer = false ∧
    (let g := timed .slow 501;
      g.powered = true ∧ g.due (g.arm .A).unit.slowTimer = true ∧ (g.cfg.arm .A).vSlow < (g.arm .A).calculator.lastSpeed ∧
        (g.arm .A).unit.sources.escalated = none) ∧
    (let g := timed .slow 500;
      g.powered = true ∧ g.due (g.arm .A).unit.slowTimer = true ∧ (g.arm .A).calculator.lastSpeed ≤ (g.cfg.arm .A).vSlow) ∧
    (let g := timed .hold 21;
      g.powered = true ∧ g.due (g.arm .A).unit.holdTimer = true ∧ (g.cfg.arm .A).vStill < (g.arm .A).calculator.lastSpeed ∧
        (g.arm .A).unit.sources.escalated ≠ some .halt) ∧
    (let g := timed .hold 20;
      g.powered = true ∧ g.due (g.arm .A).unit.holdTimer = true ∧
        (g.arm .A).calculator.lastSpeed ≤ (g.cfg.arm .A).vStill) := by decide

theorem test_hyps_EscalationTimersExpire_notices :
    let g := { timed .slow 501 with claims := [claim .A 0#8 (.plan .slot0 0) .waiting c00] }
    g.mode ≠ .init ∧ g.keysDiffer ∧ g.nothingEnds ∧ ∀ k ∈ g.claims, k.phase = .waiting → k.arm = .A ∧ k.isPlan = true :=
  ⟨by decide, differ _ (by decide), nothing_ends _ (by decide) (by decide), by decide⟩

/-- A slow expiry raises arm A to HOLD and starts its hold timer; a hold expiry raises it to HALT and starts none. -/
theorem test_hyps_EscalationTimersExpire_timers :
    let u := ((run (.slowTimerExpiry .A) (state (timed .slow 501))).guard.arm .A).unit
    let v := ((run (.holdTimerExpiry .A) (state (timed .hold 21))).guard.arm .A).unit
    u.level = .hold ∧ u.slowTimer = none ∧ u.holdTimer = some (cfg.arm .A).tHold ∧
      v.level = .halt ∧ v.slowTimer = none ∧ v.holdTimer = none := by decide +kernel

theorem test_hyps_LeakTimerExpires :
    (guard .setup).powered = true ∧ (guard .setup).due (guard .setup).leakTimer = false ∧
    Guard.due { guard .setup with leakTimer := some 0 } (some 0) = true := by decide

/-- The guard at the first cell of a scrub pass, with findings to come and its first section's counter as given; the
grid has nine columns, so that two sections are active. -/
def scrubbing (findings : List Finding) (errors : Nat) : Guard :=
  { (guard .setup).onSection 0 fun t => { t with errors := errors } with
    findings := findings
    cfg := { cfg with nc := 9 }
    scrub := ⟨0, 0, 1000, true⟩ }

theorem test_hyps_ScrubVisitReadsOneCell :
    (guard .init).powered = true ∧ (guard .init).visitDue = false ∧
    (let g := scrubbing [.good] 0;
      g.powered = true ∧ g.visitDue = true ∧ g.findings = List.replicate (g.draws [g.scrubCell g.scrub.pos]) .good ++ []) ∧
    (∀ e ∈ [11, 14, 15], let g := scrubbing [] e;
      g.powered = true ∧ g.visitDue = true ∧ g.scrubCell g.scrub.pos ∉ g.poisoned ∧
        g.isActive (g.scrubCell g.scrub.pos).sec = true ∧ g.otherActive (g.scrubCell g.scrub.pos).sec = true) ∧
    (scrubbing [.corrected] 14).findings = .corrected :: [] ∧
    ((scrubbing [.corrected] 14).sections.get 0).errors + 1 < (scrubbing [.corrected] 14).cfg.retireThreshold ∧
    (scrubbing [.rebuilt] 11).findings = .rebuilt :: [] ∧
    ((scrubbing [.rebuilt] 11).sections.get 0).errors + 4 < (scrubbing [.rebuilt] 11).cfg.retireThreshold ∧
    (scrubbing [.corrected] 15).cfg.retireThreshold ≤ ((scrubbing [.corrected] 15).sections.get 0).errors + 1 := by
  decide +kernel

theorem test_hyps_ScrubVisitReadsOneCell_schedule :
    let visits := fun g : Guard => g.cfg.gridCells.filter fun c => g.isActive c.sec
    (visits (scrubbing [] 0)).length = 18 ∧ 0 + 1 < 18 ∧ 16 + 1 < 18 ∧ 17 < 18 ∧ 18 ≤ 17 + 1 ∧
    visits ((guard .setup).onSection 0 fun t => { t with retired := true }) = [] := by decide

theorem test_hyps_ScrubVisitReadsOneCell_unholding :
    (scrubbing [.unholding] 11).findings = .unholding :: [] ∧
    ((scrubbing [.unholding] 11).sections.get 0).errors + 4 < (scrubbing [.unholding] 11).cfg.retireThreshold ∧
    (∀ c ∈ (scrubbing [.unholding] 11).claims, c.phase = .held) ∧ storeWf (scrubbing [.unholding] 11).store = true := by decide

/-- The same guard on its grid of two columns, whose one section is the only active one. -/
def lastSection (findings : List Finding) (errors : Nat) : Guard := { scrubbing findings errors with cfg := cfg }

theorem test_hyps_SectionAtThreshold : ∀ p ∈ [(Finding.corrected, 1, 15), (.rebuilt, 4, 12), (.unholding, 4, 12)],
    (let g := scrubbing (p.1 :: List.replicate 30 .good) p.2.2;
      g.powered = true ∧ g.visitDue = true ∧ g.scrubCell g.scrub.pos = c00 ∧ c00 ∉ g.poisoned ∧ g.isActive 0 = true ∧
        g.findings = p.1 :: List.replicate 30 .good ∧
        ((p.1 = .corrected ∧ p.2.1 = 1) ∨ ((p.1 = .rebuilt ∨ p.1 = .unholding) ∧ p.2.1 = 4)) ∧
        g.cfg.retireThreshold ≤ (g.sections.get 0).errors + p.2.1 ∧ g.otherActive 0 = true ∧
        (∀ f ∈ List.replicate 30 Finding.good, f = .good) ∧ (run .scrubVisit (state g)).guard.reads = g.reads ∧
        g.claims = [] ∧ storeWf g.store = true) ∧
    (let g := lastSection (p.1 :: List.replicate 30 .good) p.2.2;
      g.powered = true ∧ g.visitDue = true ∧ g.scrubCell g.scrub.pos = c00 ∧ c00 ∉ g.poisoned ∧ g.isActive 0 = true ∧
        g.cfg.retireThreshold ≤ (g.sections.get 0).errors + p.2.1 ∧ g.otherActive 0 = false ∧
        (run .scrubVisit (state g)).guard.reads = g.reads ∧ g.claims = [] ∧
        ∀ x ∈ [Arm.A, .B], (g.arm x).calculator.zone ≠ .inside) := by decide +kernel

/-- Arm A is INSIDE and holds a cell of the section that is about to be retired. -/
def heldThere : Guard := { scrubbing (.corrected :: List.replicate 30 .good) 15 with
  a := { working.a with calculator := inTray.a.calculator }
  claims := working.claims
  store := working.store }

theorem test_hyps_SectionAtThreshold_held :
    heldThere.visitDue = true ∧ heldThere.otherActive 0 = true ∧ (∀ c ∈ heldThere.claims, c.phase = .held) ∧
    heldThere.keysDiffer ∧ (heldThere.arm .A).calculator.zone = .inside ∧
    (∃ c ∈ heldThere.claims, c.arm = .A ∧ (c.effective.any fun d => d.sec = 0) = true) ∧
    (run .scrubVisit (state heldThere)).guard.reads = heldThere.reads :=
  ⟨by decide +kernel, by decide, by decide, differ _ (by decide), rfl, by decide, by decide +kernel⟩

theorem test_hyps_SectionAtThreshold_held_notices :
    heldThere.nothingEnds ∧ storeWf heldThere.store = true ∧ heldThere.mapAgrees ∧ heldThere.cfg.nc ≤ 32 ∧
    heldThere.cfg.nr ≤ 24 ∧ (heldThere.arm .A).unit.sources.revoked = false :=
  ⟨nothing_ends _ (by decide) (by decide), by decide, (tray_of _ (by decide +kernel) (by decide)).1, by decide, by decide, rfl⟩

/-- The same arm over the only active section, with a waiting claim of arm B. -/
def flushedThere : Guard := { heldThere with
  cfg := cfg
  claims := heldThere.claims ++ [{ claim .B 0#8 .supervisor .waiting c00 with priority := 3 }] }

theorem test_hyps_SectionAtThreshold_flushed :
    flushedThere.visitDue = true ∧ flushedThere.otherActive 0 = false ∧ flushedThere.keysDiffer ∧
    flushedThere.nothingEnds ∧ (flushedThere.arm .A).calculator.zone = .inside ∧
    (flushedThere.claims.filter Claim.isWaiting).length = 1 ∧
    (run .scrubVisit (state flushedThere)).guard.reads = flushedThere.reads :=
  ⟨by decide +kernel, by decide, differ _ (by decide), nothing_ends _ (by decide) (by decide), rfl, by decide,
    by decide +kernel⟩

/-- Arm A's claim waits for cells of which the section about to be retired has the first, or all. -/
def waitsThere (cHi : Nat) : Guard := ({ scrubbing (.corrected :: List.replicate 40 .good) 15 with
  lastGranted := .A
  claims := [{ claim .A 0#8 .supervisor .waiting c00 with
    shape := .rect 0 cHi 0 0
    effective := (Shape.rect 0 cHi 0 0).cells { cfg with nc := 9 } }] })

theorem test_hyps_SectionAtThreshold_waiting : ∀ p ∈ [(0, []), (8, [(⟨8, 0⟩ : Cell)])],
    let g := waitsThere p.1
    g.visitDue = true ∧ g.otherActive 0 = true ∧ storeWf g.store = true ∧ g.trayInOrder ∧ g.nothingEnds ∧
      (run .scrubVisit (state g)).guard.reads = g.reads ∧
      (∀ k ∈ g.claims, k.phase = .waiting ∧ (∃ d ∈ k.shape.cells g.cfg, d.sec = 0) ∧
        ((k.shape.cells g.cfg).filter fun d =>
          d.sec ≠ 0 ∧ d ∉ g.fences ∧ g.isRetired d.sec = false ∧ d ∉ g.poisoned) = p.2) := by
  intro p hp
  rcases List.mem_pair.1 hp with e | e <;> subst e <;>
    exact ⟨by decide +kernel, by decide, by decide, tray_of _ (by decide +kernel) (by decide),
      nothing_ends _ (by decide) (by decide), by decide +kernel, by decide +kernel⟩

theorem test_hyps_TimeBaseAdvances : working.powered = true ∧ working.mode ≠ .init ∧
    State.reset.guard.powered = true ∧ State.reset.guard.mode = .init ∧
    (waitingFor.claims.find? fun c => c.phase = .waiting && c.arm = .A) = some (claim .A 0#8 (.plan .slot0 0) .waiting c00) ∧
    (waitingFor.entryOf c00).owner = some (Arm.other .A) ∧ (waitingFor.entryOf c00).vacating = false := by decide

theorem test_hyps_StoppingDistance : reference.p2 = none ∧ reference.velocity.clamped.z < 0 ∧
    0 ≤ (Velocity.mk 0 0 0).clamped.z ∧
    { reference with p2 := some ⟨1680, 900, 1200⟩ }.p2 = some ⟨1680, 900, 1200⟩ ∧
    0 < 300 ∧ (4722 : Int) ≠ 0 ∧ 4095 < 4096 ∧ 4094 ≤ 4095 ∧
    4095 * (1000 * 300) < 4723 * 80 * 300 + 50 * (4723 * 4723) ∧ 4723 * 80 * 300 + 50 * (4723 * 4723) ≤ 4096 * (1000 * 300) := by
  decide

theorem test_hyps_FootprintInsideGrid :
    0 < cfg.pitch ∧ 0 < cfg.nc ∧ 0 < cfg.nr ∧
    (let b : Box := ⟨-10, 399, 0, 400⟩;
      b.xlo ≤ b.xhi ∧ b.ylo ≤ b.yhi ∧ ¬(cfg.columnOf b.xhi < 0 ∨ (cfg.nc : Int) - 1 < cfg.columnOf b.xlo ∨
        cfg.rowOf b.yhi < 0 ∨ (cfg.nr : Int) - 1 < cfg.rowOf b.ylo)) ∧
    (let b : Box := ⟨-610, -1, 0, 0⟩;
      b.xlo ≤ b.xhi ∧ b.ylo ≤ b.yhi ∧ cfg.columnOf b.xhi < 0) ∧
    (let b : Box := ⟨400, 400, 0, 0⟩;
      b.xlo ≤ b.xhi ∧ b.ylo ≤ b.yhi ∧ (cfg.nc : Int) - 1 < cfg.columnOf b.xlo) := by decide

/-- A sample over the middle of the default grid at a height. -/
def atHeight (z : Int) : Sample := ⟨0#8, ⟨3000, 2000, z⟩, none, ⟨0, 0, 0⟩⟩

theorem test_hyps_ZoneOfSample :
    (lowestHeight .default (atHeight 1499) < (1500 : Int) ∧ (stoppingBox .default (atHeight 1499)).cellRange .default ≠ none) ∧
    ¬lowestHeight .default (atHeight 1500) < (1500 : Int) ∧
    (lowestHeight .default (atHeight 1549) < (1500 + 50 : Int) ∧ ¬lowestHeight .default (atHeight 1550) < (1500 + 50 : Int)) ∧
    (stoppingBox .default ⟨0#8, ⟨-310, 150, 800⟩, none, ⟨0, 0, 0⟩⟩).cellRange .default = none := by decide

theorem test_hyps_ShapesAndCells : (Shape.rect 0 1 0 1).valid cfg.nc cfg.nr = true ∧
    (Shape.strip 1 3#32).valid cfg.nc cfg.nr = true ∧ (Shape.quad 0 0 15#4).valid cfg.nc cfg.nr = true ∧
    shapeAt cfg [2#8, 1#8, 2#8, 0#8, 0#8, 0#8, 9#8] 0 = some (.strip 1 2#32) ∧
    shapeAt cfg [3#8, 0#8, 0#8, 0xF9#8, 9#8, 9#8, 9#8] 0 = some (.quad 0 0 9#4) := by decide

theorem test_hyps_CellOfPoint : 0 < cfg.pitch := by decide

theorem test_hyps_LevelIsHighestAction : Sources.initial.has .noPosition = true ∧
    { Sources.initial with escalated := some .halt }.escalated = some .halt := ⟨rfl, rfl⟩

theorem test_hyps_GoodReadsHarmNothing : mayRestart .scrubVisit = false ∧ Instr.scrubVisit ≠ .leakTimerExpiry ∧
    exec .scrubVisit (state (scrubbing [.good] 0)) = .next (run .scrubVisit (state (scrubbing [.good] 0))) ∧
    (∀ f ∈ (scrubbing [.good] 0).findings, f = .good) ∧
    (run .scrubVisit (state (scrubbing [.good] 0))).guard.reads = (scrubbing [.good] 0).reads :=
  ⟨rfl, by decide, rfl, by decide, by decide +kernel⟩

/-! ### The invariants -/

/-- The working guard with a step of the time base to take. -/
def ticking : State := (state working).withCommand .timeBaseStep

theorem test_ticking_steps : step ticking = .next (run .timeBaseStep (state working)) := rfl

theorem test_hyps_TrayStaysInOrder :
    storeWf ticking.guard.store = true ∧ ticking.guard.trayInOrder ∧ ticking.guard.cursorInList :=
  ⟨by decide, tray_of _ (by decide +kernel) (by decide), (by decide : 0 < working.scrubLength)⟩

theorem test_hyps_LevelsStayRight :
    (∀ x, ticking.guard.levelAgrees x ∧ ticking.guard.linesFollow x) ∧ ticking.guard.absentCuts :=
  ⟨by intro x; cases x <;> exact ⟨rfl, rfl, rfl, rfl⟩, fun h => absurd h (by decide)⟩

theorem test_hyps_LevelsStayRight_absent :
    let t := run (.powerLoss .permit) (state working)
    (∀ x, t.guard.levelAgrees x ∧ t.guard.linesFollow x) ∧ t.guard.permitSupply = false ∧ t.guard.linesCut = true :=
  ⟨by intro x; cases x <;> exact ⟨rfl, rfl, rfl, rfl⟩, rfl, rfl⟩

theorem test_hyps_ClaimTableStaysInOrder :
    ticking.guard.claimsFit ∧ ticking.guard.keysDiffer ∧ ticking.guard.claimsFitMode :=
  ⟨by intro x; cases x <;> decide, differ _ (by decide), by decide, by decide⟩

theorem test_hyps_PlanAccountsBalance : ticking.guard.plansInOrder := by
  refine ⟨differ _ (by decide), ?_, ?_⟩
  · intro x i
    cases x <;> cases i
    · exact ⟨by decide, rfl⟩
    · rfl
    · rfl
    · rfl
  · intro x
    cases x <;> exact ⟨by decide, by decide, by decide⟩

theorem test_hyps_QueuesStayWithinSize : ticking.link.fits :=
  ⟨⟨by decide, by decide, by decide, by decide⟩, ⟨by decide, by decide, by decide⟩, by decide, by decide, by decide⟩

theorem test_hyps_SomeSectionStaysActive : ticking.guard.someActive ∧ ticking.guard.cfg.nc ≤ 32 :=
  ⟨⟨0, by decide, by decide⟩, by decide⟩

theorem test_hyps_ZonesStayInOrder : ∀ x, (ticking.guard.arm x).zoneInOrder := by
  intro x; cases x <;> exact ⟨by decide, by decide, by decide, by decide⟩

theorem test_hyps_TimersBelongToLevel : ∀ x, (ticking.guard.arm x).unit.timersFit := by
  intro x; cases x <;> exact ⟨by decide, by decide⟩

theorem test_hyps_PrioritiesStayInRange : ticking.guard.prioritiesFit := by
  refine ⟨by show ∀ c ∈ working.claims, c.base ≤ c.priority ∧ c.priority ≤ 7; decide, ?_⟩
  intro x i p h
  cases x <;> cases i <;> simp [ticking, State.withCommand, state, working, guard, free, Guard.arm, ArmState.slot,
    ArmState.initial, Slot.plan?] at h
  subst h
  decide

end Sys2Proof.Tests
end

/-! # Every command by the events it is made of

A step changes the guard by one of a few kinds of event alone; the links only decide when a request is served. A predicate
that each kind of event keeps is therefore kept by every step. -/

namespace Sys2Proof.Machine

/-- What a predicate on the guard must survive to hold after every step: one field per kind of event, with the condition
under which the command takes it. -/
structure Guard.Kept (P : Guard → Prop) : Prop where
  powerOn : ∀ g, P g → P { Guard.initial with findings := g.findings, reads := g.reads }
  permitLoss : ∀ g, P g → P { g.cutLines with permitSupply := false }
  logicLoss : ∀ g, P g → P { g.cutLines with powered := false }
  shorted : ∀ g x line overheats, P g →
    P (g.onUnit x fun u => { u with lines := u.lines.on line fun p => p.shorted overheats })
  initEnd : ∀ g, g.mode = .init → P g → P g.endInit.finish.guard
  serve : ∀ g l kind p, P g → P (g.serve l kind p).1.finish.guard
  serveArm : ∀ g x kind p, isArmKind kind = true → P g → P (g.serveArm x kind p).1.finish.guard
  gapExpiry : ∀ g x, g.due (g.arm x).intake.gapTimer = true → P g → P (g.gapExpiry x).finish.guard
  agingExpiry : ∀ g k c, g.claim? k = some c → c.phase = .waiting → P g → P (g.agingExpiry c.key).finish.guard
  timeoutExpiry : ∀ g k c, g.claim? k = some c → c.phase = .waiting → P g →
    P (g.quietEvent.bounce c .timeout).finish.guard
  slowExpiry : ∀ g x, g.due (g.arm x).unit.slowTimer = true → P g → P (g.slowExpiry x).finish.guard
  holdExpiry : ∀ g x, g.due (g.arm x).unit.holdTimer = true → P g → P (g.holdExpiry x).finish.guard
  leak : ∀ g, P g → P g.leak
  visit : ∀ g, g.visitDue = true → P g → P g.visit.finish.guard
  tick : ∀ g, P g → P g.tick

theorem State.onPort_guard (s : State) (p : Port) (f : PortState → PortState) : (s.onPort p f).guard = s.guard := by
  cases p <;> rfl

/-- A command that does something with power alone keeps what its effect keeps. -/
theorem State.whenPowered_keeps {P : Guard → Prop} {s t : State} {f : State → State} (e : s.whenPowered f = .next t)
    (h : P s.guard) (hf : P (f s).guard) : P t.guard := by
  unfold State.whenPowered at e
  cases e
  split
  · exact hf
  · exact h

/-- The expiry of a waiting claim's timer, one that is not due doing nothing. -/
theorem Guard.claimTimer_keeps {P : Guard → Prop} {s t : State} {x : Arm} {number : Byte} {due : Claim → Bool} {then_ : Claim → Event}
    (e : s.whenPowered (fun s =>
      match s.guard.claim? ⟨x, number⟩ with
      | none => s
      | some c => if c.isWaiting && due c then s.conclude (then_ c) else s) = .next t)
    (hk : ∀ c, s.guard.claim? ⟨x, number⟩ = some c → c.phase = .waiting → P (then_ c).finish.guard) (h : P s.guard) :
    P t.guard := by
  refine State.whenPowered_keeps e h ?_
  split
  · exact h
  · rename_i c hc
    split
    · rename_i hw
      have hw : c.isWaiting = true := (Bool.and_eq_true_iff.1 hw).1
      exact hk c hc (by simpa [Claim.isWaiting] using hw)
    · exact h

section
variable {P : Guard → Prop} (k : Guard.Kept P)
include k

/-! ## The supervisor port -/

theorem Guard.Kept.serveSupervisor {s : State} (f : Frame) (h : P s.guard) : P (s.serveSupervisor f).guard :=
  k.serve s.guard s.link f.kind f.payload h

theorem Guard.Kept.supervisorArrival {s : State} (f : Frame) (h : P s.guard) : P (s.supervisorArrival f).guard := by
  unfold State.supervisorArrival
  dsimp only
  split
  · exact h
  · split
    · exact h
    · split
      · exact h
      · split
        · exact k.serveSupervisor f h
        · exact h

theorem Guard.Kept.serveNext {s : State} (h : P s.guard) : P s.serveNext.guard := by
  unfold State.serveNext
  dsimp only
  split
  · exact h
  · split
    · exact h
    · exact k.serveSupervisor _ h
    · exact h
    · split
      · exact h
      · exact k.serveSupervisor _ h

theorem Guard.Kept.endSupervisorFrame {s : State} (h : P s.guard) : P s.endSupervisorFrame.guard := by
  unfold State.endSupervisorFrame
  split
  · exact h
  · exact k.serveNext h

/-! ## The arm ports and the characters -/

theorem Guard.Kept.armArrival {s : State} (x : Arm) (f : Frame) (h : P s.guard) : P (s.armArrival x f).guard := by
  unfold State.armArrival
  dsimp only
  split
  · exact h
  · split
    · exact h
    · rename_i hk
      exact k.serveArm s.guard x f.kind f.payload (by simpa using hk) h

theorem Guard.Kept.received {s : State} (p : Port) (e : RxEvent) (h : P s.guard) : P (s.received p e).guard := by
  cases e with
  | none => exact h
  | abandoned => exact (s.onPort_guard p _).symm ▸ h
  | badCheck => exact (s.onPort_guard p _).symm ▸ h
  | frame f =>
    cases p with
    | supervisor => exact k.supervisorArrival f h
    | arm x => exact k.armArrival x f h

theorem Guard.Kept.characters {s : State} (p : Port) (cs : List Character) (h : P s.guard) :
    P (s.characters p cs).guard := by
  induction cs generalizing s with
  | nil => exact h
  | cons c cs ih =>
    refine ih (s := s.character p c) ?_
    exact k.received p _ ((s.onPort_guard p _).symm ▸ h)

/-! ## Every command -/

/-- The commands that are a supervisor request's arrival. -/
theorem Guard.Kept.supervisorRow {s t : State} (f : Frame)
    (e : s.whenPowered (fun s => s.supervisorArrival f) = .next t) (h : P s.guard) : P t.guard :=
  State.whenPowered_keeps e h (k.supervisorArrival f h)

/-- The commands that are an arm request's arrival. -/
theorem Guard.Kept.armRow {s t : State} (x : Arm) (f : Frame)
    (e : s.whenPowered (fun s => s.armArrival x f) = .next t) (h : P s.guard) : P t.guard :=
  State.whenPowered_keeps e h (k.armArrival x f h)

theorem Guard.Kept.exec {s t : State} (i : Instr) (e : exec i s = .next t) (h : P s.guard) : P t.guard := by
  cases i with
  | powerOn =>
    obtain rfl := Host.Outcome.next.inj e
    exact k.powerOn s.guard h
  | initEnd =>
    refine State.whenPowered_keeps e h ?_
    split
    · rename_i hm
      rw [State.conclude_guard]
      exact k.initEnd s.guard hm h
    · exact h
  | powerLoss supply =>
    cases supply <;> cases e
    · exact k.logicLoss s.guard h
    · exact k.permitLoss s.guard h
  | frameBadCheck port chars =>
    have e : s.whenPowered (fun s => s.characters port chars) = .next t := e
    exact State.whenPowered_keeps e h (k.characters port chars h)
  | frameAbandoned port chars =>
    have e : s.whenPowered (fun s => s.characters port chars) = .next t := e
    exact State.whenPowered_keeps e h (k.characters port chars h)
  | transmitEnd port =>
    cases port with
    | supervisor =>
      have e : s.whenPowered State.endSupervisorFrame = .next t := e
      exact State.whenPowered_keeps e h (k.endSupervisorFrame h)
    | arm x =>
      have e : s.whenPowered (fun s => s.onArmLink x ArmLink.endFrame) = .next t := e
      exact State.whenPowered_keeps e h h
  | supervisorRequestArrival kind tag p => exact k.supervisorRow _ e h
  | configure tag p => exact k.supervisorRow _ e h
  | start tag p => exact k.supervisorRow _ e h
  | stop tag p => exact k.supervisorRow _ e h
  | restart tag p => exact k.supervisorRow _ e h
  | fence tag p => exact k.supervisorRow _ e h
  | unfence tag p => exact k.supervisorRow _ e h
  | loadPlan tag p => exact k.supervisorRow _ e h
  | dropPlan tag p => exact k.supervisorRow _ e h
  | dropPlanLoaded tag a => exact k.supervisorRow _ e h
  | claimFor tag p => exact k.supervisorRow _ e h
  | revoke tag p => exact k.supervisorRow _ e h
  | clearFaults tag p => exact k.supervisorRow _ e h
  | getStatus tag p => exact k.supervisorRow _ e h
  | getRow tag p => exact k.supervisorRow _ e h
  | setCounters tag p => exact k.supervisorRow _ e h
  | getCounters tag p => exact k.supervisorRow _ e h
  | sample x tag p => exact k.armRow x _ e h
  | request x tag p => exact k.armRow x _ e h
  | skip x tag p => exact k.armRow x _ e h
  | release x tag p => exact k.armRow x _ e h
  | armPortUnknownKind x kind tag p => exact k.armRow x _ e h
  | gapTimerExpiry x =>
    refine State.whenPowered_keeps e h ?_
    split
    · rename_i hd; exact k.gapExpiry s.guard x hd h
    · exact h
  | agingTimerExpiry x n => exact Guard.claimTimer_keeps e (fun c hc hw => k.agingExpiry s.guard _ c hc hw h) h
  | timeoutTimerExpiry x n => exact Guard.claimTimer_keeps e (fun c hc hw => k.timeoutExpiry s.guard _ c hc hw h) h
  | slowTimerExpiry x =>
    refine State.whenPowered_keeps e h ?_
    split
    · rename_i hd; exact k.slowExpiry s.guard x hd h
    · exact h
  | holdTimerExpiry x =>
    refine State.whenPowered_keeps e h ?_
    split
    · rename_i hd; exact k.holdExpiry s.guard x hd h
    · exact h
  | leakTimerExpiry =>
    refine State.whenPowered_keeps e h ?_
    split
    · exact k.leak s.guard h
    · exact h
  | scrubVisit =>
    refine State.whenPowered_keeps e h ?_
    split
    · rename_i hd; exact k.visit s.guard hd h
    · exact h
  | timeBaseStep =>
    have e : s.whenPowered (fun s => { s with guard := s.guard.tick }) = .next t := e
    exact State.whenPowered_keeps e h (k.tick s.guard h)
  | permitLineShorted x line o =>
    have e : s.whenPowered (fun s => { s with guard := s.guard.onUnit x fun u =>
      { u with lines := u.lines.on line fun p => p.shorted o } }) = .next t := e
    exact State.whenPowered_keeps e h (k.shorted s.guard x line o h)

/-- What every kind of event keeps, every step keeps. -/
theorem Guard.Kept.step {s t : State} (e : step s = .next t) (h : P s.guard) : P t.guard := by
  unfold Machine.step at e
  split at e
  · cases e; exact h
  · exact k.exec (s := { s with pending := _ }) _ e h

end

/-! ## The services one by one -/

/-- What a supervisor request comes to: nothing but its reply, or the service of its kind. -/
theorem Guard.serve_cases {Q : Event → Prop} (g : Guard) (l : Link) (kind : Byte) (p : List Byte) (none : Q g.event)
    (configure : Q (g.serveConfigure p).1) (start : Q g.serveStart.1) (stop : Q g.serveStop.1)
    (restart : Q g.serveRestart.1) (fence : Q (g.serveFence p).1) (unfence : Q (g.serveUnfence p).1)
    (loadPlan : Q (g.serveLoadPlan p).1) (dropPlan : Q (g.serveDropPlan p).1) (claimFor : Q (g.serveClaimFor p).1)
    (revoke : Q (g.serveRevoke p).1) (clearFaults : Q (g.serveClearFaults p).1) (status : Q (g.serveGetStatus l).1)
    (row : Q (g.serveGetRow p).1) (counters : Q (g.serveSetCounters p).1) : Q (g.serve l kind p).1 := by
  unfold Guard.serve
  split
  · exact none
  · split
    · exact none
    · split
      · exact configure
      · exact start
      · exact stop
      · exact restart
      · exact fence
      · exact unfence
      · exact loadPlan
      · exact dropPlan
      · exact claimFor
      · exact revoke
      · exact clearFaults
      · exact status
      · exact row
      · exact counters
      · exact none
      · exact none

/-- What an arm's request comes to: nothing but its reply, or the service of its kind. -/
theorem Guard.serveArm_cases {Q : Event → Prop} (g : Guard) (x : Arm) (kind : Byte) (p : List Byte) (none : Q g.event)
    (discard : Q (g.discardSample x p).1) (sample : Q (g.serveSample x p).1) (request : Q (g.serveRequest x).1)
    (skip : Q (g.serveSkip x).1) (release : Q (g.serveRelease x p).1) : Q (g.serveArm x kind p).1 := by
  unfold Guard.serveArm
  split
  · split
    · exact discard
    · exact sample
  · split
    · exact none
    · split
      · exact none
      · exact request
  · split
    · exact none
    · split
      · exact none
      · exact skip
  · split
    · exact none
    · split
      · exact none
      · exact release

end Sys2Proof.Machine


/-! # The frame of an event: configuration set, retirements and scrub cursor

Reads, evaluations, endings of claims and changes of level leave all three alone; a retirement, a restart of the scrub and
CONFIGURE are what changes them. -/

namespace Sys2Proof.Machine

/-- What says which sections are active and which cells the scrub visits. -/
def Guard.grid (g : Guard) : ConfigSet × Four Bool := (g.cfg, g.sections.map SectionState.retired)

/-- The grid, and the scrub cursor in it. -/
def Guard.frame (g : Guard) : (ConfigSet × Four Bool) × ScrubCursor := (g.grid, g.scrub)

theorem Four.get_map {α β : Type} (q : Four α) (f : α → β) (i : Nat) : (q.map f).get i = f (q.get i) := by
  match i with
  | 0 => rfl
  | 1 => rfl
  | 2 => rfl
  | _ + 3 => rfl

/-- A member of four after one of them is changed: the changed one where its index names it, 3 and above naming the last. -/
theorem Four.get_upd {α : Type} (q : Four α) (i j : Nat) (f : α → α) :
    (q.upd i f).get j = if min i 3 = min j 3 then f (q.get j) else q.get j := by
  match i, j with
  | 0, 0 => rfl
  | 0, 1 => rfl
  | 0, 2 => rfl
  | 0, n + 3 => simp [Four.upd, Four.get]
  | 1, 0 => rfl
  | 1, 1 => rfl
  | 1, 2 => rfl
  | 1, n + 3 => simp [Four.upd, Four.get]
  | 2, 0 => rfl
  | 2, 1 => rfl
  | 2, 2 => rfl
  | 2, n + 3 => simp [Four.upd, Four.get]
  | m + 3, 0 => simp [Four.upd, Four.get]
  | m + 3, 1 => simp [Four.upd, Four.get]
  | m + 3, 2 => simp [Four.upd, Four.get]
  | m + 3, n + 3 => simp [Four.upd, Four.get]

theorem Four.map_upd {α β : Type} (q : Four α) (i : Nat) {f : α → α} {p : α → β} (h : ∀ a, p (f a) = p a) :
    (q.upd i f).map p = q.map p := by
  match i with
  | 0 => simp [Four.upd, Four.map, h]
  | 1 => simp [Four.upd, Four.map, h]
  | 2 => simp [Four.upd, Four.map, h]
  | _ + 3 => simp [Four.upd, Four.map, h]

/-! ## What the grid decides -/

theorem Guard.cfg_of_grid {g h : Guard} (e : h.grid = g.grid) : h.cfg = g.cfg := congrArg Prod.fst e

theorem Guard.isRetired_of_grid {g h : Guard} (e : h.grid = g.grid) : h.isRetired = g.isRetired := by
  funext s
  have := congrArg (fun q : ConfigSet × Four Bool => q.2.get s) e
  simp only [Guard.grid, Four.get_map] at this
  exact this

theorem Guard.isActive_of_grid {g h : Guard} (e : h.grid = g.grid) : h.isActive = g.isActive := by
  funext s
  rw [Guard.isActive, Guard.isActive, Guard.cfg_of_grid e, Guard.isRetired_of_grid e]

theorem Guard.someActive_of_grid {g h : Guard} (e : h.grid = g.grid) : h.someActive ↔ g.someActive := by
  rw [Guard.someActive, Guard.someActive, Guard.isActive_of_grid e]

theorem Guard.scrubLength_of_grid {g h : Guard} (e : h.grid = g.grid) : h.scrubLength = g.scrubLength := by
  unfold Guard.scrubLength Guard.scrubColumns
  rw [Guard.cfg_of_grid e, Guard.isActive_of_grid e]

theorem Guard.grid_of_frame {g h : Guard} (e : h.frame = g.frame) : h.grid = g.grid := congrArg Prod.fst e

theorem Guard.scrub_of_frame {g h : Guard} (e : h.frame = g.frame) : h.scrub = g.scrub := congrArg Prod.snd e

theorem Guard.cursorInList_of_frame {g h : Guard} (e : h.frame = g.frame) : h.cursorInList ↔ g.cursorInList := by
  rw [Guard.cursorInList, Guard.cursorInList, Guard.scrubLength_of_grid (Guard.grid_of_frame e), Guard.scrub_of_frame e]

/-- A change that leaves the three fields alone leaves the frame. -/
theorem Guard.frame_congr {g h : Guard} (hc : h.cfg = g.cfg) (hs : h.sections = g.sections) (hp : h.scrub = g.scrub) :
    h.frame = g.frame := by
  simp [Guard.frame, Guard.grid, hc, hs, hp]

/-! ## Changes of the guard -/

@[simp] theorem Guard.onArm_frame (g : Guard) (x : Arm) (f : ArmState → ArmState) : (g.onArm x f).frame = g.frame :=
  Guard.frame_congr (by simp) (by simp) (by simp)

@[simp] theorem Guard.onUnit_frame (g : Guard) (x : Arm) (f : ActionUnit → ActionUnit) : (g.onUnit x f).frame = g.frame :=
  g.onArm_frame x _

@[simp] theorem Guard.onVacate_frame (g : Guard) (x : Arm) (f : CellSet → CellSet) : (g.onVacate x f).frame = g.frame :=
  g.onArm_frame x _

@[simp] theorem Guard.signal_frame (g : Guard) (x : Arm) (e : CountEvent) (n : Nat) : (g.signal x e n).frame = g.frame :=
  g.onArm_frame x _

@[simp] theorem Guard.followLines_frame (g : Guard) (x : Arm) : (g.followLines x).frame = g.frame := g.onUnit_frame x _

@[simp] theorem Guard.changeLevel_frame (g : Guard) (x : Arm) (l : Level) : (g.changeLevel x l).frame = g.frame := by
  simp [Guard.changeLevel]

@[simp] theorem Guard.reindexCell_frame (g : Guard) (c : Cell) : (g.reindexCell c).frame = g.frame := rfl

@[simp] theorem Guard.reindex_frame (g : Guard) (cells : CellSet) : (g.reindex cells).frame = g.frame :=
  Guard.frame_congr (by simp) (by simp) (by simp)

@[simp] theorem Guard.onClaim_frame (g : Guard) (k : ClaimKey) (f : Claim → Claim) : (g.onClaim k f).frame = g.frame := rfl

@[simp] theorem Guard.removeClaim_frame (g : Guard) (k : ClaimKey) : (g.removeClaim k).frame = g.frame := rfl

@[simp] theorem Guard.succeed_frame (g : Guard) (c : Claim) : (g.succeed c).frame = g.frame := by
  unfold Guard.succeed
  split <;> rfl

@[simp] theorem Guard.addClaim_frame (g : Guard) (c : Claim) : (g.addClaim c).frame = g.frame := g.onArm_frame c.arm _

/-- A change of a section that is no retirement. -/
@[simp] theorem Guard.onSection_frame (g : Guard) (s : Nat) {f : SectionState → SectionState} (h : ∀ t, (f t).retired = t.retired) :
    (g.onSection s f).frame = g.frame := by
  simp only [Guard.frame, Guard.grid, Guard.onSection, Four.map_upd _ s h]

@[simp] theorem Guard.drawFinding_frame (g : Guard) : g.drawFinding.2.frame = g.frame := by
  unfold Guard.drawFinding
  split <;> rfl

@[simp] theorem Guard.poisonCell_frame (g : Guard) (c : Cell) : (g.poisonCell c).frame = g.frame := by
  unfold Guard.poisonCell
  simp only [Guard.reindexCell_frame, Guard.onSection_frame, Guard.onVacate_frame, implies_true]
  rfl

@[simp] theorem Guard.refit_frame (g : Guard) (k : ClaimKey) (old kept : CellSet) (n : Nat) :
    (g.refit k old kept n).frame = g.frame := by
  simp [Guard.refit]

@[simp] theorem Guard.grant_frame (g : Guard) (c : Claim) : (g.grant c).frame = g.frame := by
  unfold Guard.grant
  rw [Guard.reindex_frame]
  exact (Guard.succeed_frame _ c).trans (by simp)

@[simp] theorem Guard.reserve_frame (g : Guard) (c : Claim) : (g.reserve c).frame = g.frame := by
  simp [Guard.reserve]

/-! ## Claims that leave, and reads -/

@[simp] theorem Event.tally_frame (ev : Event) (x : Arm) (i : SlotIx) (o : EntryOutcome) :
    (ev.tally x i o).guard.frame = ev.guard.frame := by
  simp [Event.tally]

@[simp] theorem Event.settleEntry_frame (ev : Event) (c : Claim) (o : EntryOutcome) :
    (ev.settleEntry c o).guard.frame = ev.guard.frame := by
  unfold Event.settleEntry
  split <;> simp

@[simp] theorem Event.leaveWaiting_frame (ev : Event) (c : Claim) (n : ArmNotice) :
    (ev.leaveWaiting c n).guard.frame = ev.guard.frame := by
  simp [Event.leaveWaiting]

/-- A fold of operations that each keep the frame. -/
theorem Event.foldl_frame {α : Type} {f : Event → α → Event} (h : ∀ ev a, (f ev a).guard.frame = ev.guard.frame)
    (as : List α) (ev : Event) : (as.foldl f ev).guard.frame = ev.guard.frame := by
  induction as generalizing ev with
  | nil => rfl
  | cons a as ih => exact (ih (f ev a)).trans (h ev a)

@[simp] theorem Event.withdrawAll_frame (ev : Event) (p : Claim → Bool) :
    (ev.withdrawAll p).guard.frame = ev.guard.frame := by
  refine Event.foldl_frame (fun ev k => ?_) _ ev
  split
  · exact ev.leaveWaiting_frame _ _
  · rfl

@[simp] theorem Event.rise_frame (ev : Event) (s n : Nat) : (ev.rise s n).guard.frame = ev.guard.frame := by
  unfold Event.rise
  split
  · dsimp only
    split <;> exact Guard.onSection_frame _ s fun _ => rfl
  · rfl

@[simp] theorem Event.poison_frame (ev : Event) (c : Cell) : (ev.poison c).guard.frame = ev.guard.frame :=
  Guard.poisonCell_frame _ c

@[simp] theorem Event.uncorrectable_frame (ev : Event) (c : Cell) :
    (ev.uncorrectable c).guard.frame = ev.guard.frame := by
  unfold Event.uncorrectable
  simp

@[simp] theorem Event.readRaw_frame (ev : Event) (who : Reader) (c : Cell) :
    (ev.readRaw who c).1.guard.frame = ev.guard.frame := by
  unfold Event.readRaw
  split
  · rfl
  · dsimp only
    split
    · simp
    · simp
    · simp [Event.postRead_guard]
    · simp [Event.postRead_guard]

@[simp] theorem Event.formRaw_frame (ev : Event) (cells : CellSet) :
    (ev.formRaw cells).1.guard.frame = ev.guard.frame := by
  induction cells generalizing ev with
  | nil => rfl
  | cons c cs ih => exact (ih _).trans (ev.readRaw_frame .arbiter c)

@[simp] theorem Event.reform_frame (ev : Event) (k : ClaimKey) : (ev.reform k).guard.frame = ev.guard.frame := by
  unfold Event.reform
  split
  · rfl
  · dsimp only
    split
    · split
      · simp [Event.bounce]
      · simp
    · simp

@[simp] theorem Event.settleRounds_frame (n : Nat) (ev : Event) :
    (ev.settleRounds n).guard.frame = ev.guard.frame := by
  induction n generalizing ev with
  | zero => rfl
  | succ n ih =>
    unfold Event.settleRounds
    split
    · rfl
    · exact (ih _).trans (Event.foldl_frame Event.reform_frame _ _)

@[simp] theorem Event.settle_frame (ev : Event) : ev.settle.guard.frame = ev.guard.frame := ev.settleRounds_frame 769

@[simp] theorem Event.readCell_frame (ev : Event) (who : Reader) (c : Cell) :
    (ev.readCell who c).1.guard.frame = ev.guard.frame :=
  (Event.settle_frame _).trans (ev.readRaw_frame who c)

@[simp] theorem Event.readCells_frame (ev : Event) (who : Reader) (cells : CellSet) :
    (ev.readCells who cells).1.guard.frame = ev.guard.frame := by
  induction cells generalizing ev with
  | nil => rfl
  | cons c cs ih => exact (ih _).trans (ev.readCell_frame who c)

@[simp] theorem Event.form_frame (ev : Event) (cells : CellSet) : (ev.form cells).1.guard.frame = ev.guard.frame :=
  ev.readCells_frame .arbiter cells

@[simp] theorem Event.rewrite_frame (ev : Event) (c : Cell) : (ev.rewrite c).1.guard.frame = ev.guard.frame :=
  Guard.drawFinding_frame _

@[simp] theorem Event.rewriteAll_frame (ev : Event) (cause : PoisonCause) (cells : CellSet) :
    (ev.rewriteAll cause cells).guard.frame = ev.guard.frame := by
  refine Event.foldl_frame (fun ev c => ?_) cells ev
  dsimp only
  split <;> simp

/-! ## The evaluation -/

@[simp] theorem Event.testCells_frame (ev : Event) (x : Arm) (ok : Bool) (cells : CellSet) :
    (ev.testCells x ok cells).1.guard.frame = ev.guard.frame := by
  induction cells generalizing ev ok with
  | nil => rfl
  | cons c cs ih =>
    unfold Event.testCells
    dsimp only
    split
    · simp
    · exact (ih _ _).trans (ev.readCell_frame _ _)

@[simp] theorem Event.testClaim_frame (n : Nat) (ev : Event) (k : ClaimKey) :
    (ev.testClaim n k).1.guard.frame = ev.guard.frame := by
  induction n generalizing ev with
  | zero => rfl
  | succ n ih =>
    unfold Event.testClaim
    split
    · rfl
    · rename_i c _
      have h := ev.testCells_frame c.arm true c.effective
      split
      · rename_i e
        rw [e] at h
        split
        · exact h
        · exact (ih _).trans h
      · rename_i e
        rw [e] at h
        exact (ih _).trans h

@[simp] theorem Event.takeCandidate_frame (ev : Event) (k : ClaimKey) :
    (ev.takeCandidate k).guard.frame = ev.guard.frame := by
  unfold Event.takeCandidate
  dsimp only
  split
  · simp
  · split
    · simp [Event.grant]
    · split <;> simp

@[simp] theorem Event.evaluateRounds_frame (n : Nat) (ev : Event) (taken : List ClaimKey) :
    (ev.evaluateRounds n taken).guard.frame = ev.guard.frame := by
  induction n generalizing ev taken with
  | zero => rfl
  | succ n ih =>
    unfold Event.evaluateRounds
    split
    · rfl
    · exact (ih _ _).trans (Event.takeCandidate_frame _ _)

@[simp] theorem Event.runEvaluation_frame (ev : Event) : ev.runEvaluation.guard.frame = ev.guard.frame := by
  unfold Event.runEvaluation
  split
  · rfl
  · exact ev.evaluateRounds_frame 4000 []

@[simp] theorem Event.evaluateIfCalled_frame (ev : Event) : ev.evaluateIfCalled.guard.frame = ev.guard.frame := by
  unfold Event.evaluateIfCalled
  split <;> simp

/-! ## The action unit, the plans and the handover -/

@[simp] theorem Event.raise_frame (ev : Event) (x : Arm) (src : Source) :
    (ev.raise x src).guard.frame = ev.guard.frame := by
  unfold Event.raise
  split <;> simp

@[simp] theorem Event.lower_frame (ev : Event) (x : Arm) (src : Source) :
    (ev.lower x src).guard.frame = ev.guard.frame := by
  simp [Event.lower]

@[simp] theorem Event.setLive_frame (ev : Event) (x : Arm) (src : Source) (b : Bool) :
    (ev.setLive x src b).guard.frame = ev.guard.frame := by
  unfold Event.setLive
  split <;> simp

@[simp] theorem Event.escalate_frame (ev : Event) (x : Arm) (e : Escalation) :
    (ev.escalate x e).guard.frame = ev.guard.frame := by
  simp [Event.escalate]

@[simp] theorem Event.computeLevel_frame (ev : Event) (x : Arm) :
    (ev.computeLevel x).guard.frame = ev.guard.frame := by
  unfold Event.computeLevel
  dsimp only
  split
  · rfl
  · split <;> simp

@[simp] theorem Event.settleLevel_frame (ev : Event) (x : Arm) :
    (ev.settleLevel x).guard.frame = ev.guard.frame := by
  simp [Event.settleLevel, Event.postFaults_guard]

@[simp] theorem Event.latchRevoked_frame (ev : Event) (named : Arm → Bool) :
    (ev.latchRevoked named).guard.frame = ev.guard.frame := by
  have h : ∀ (e : Event) (x : Arm),
      (if named x && (e.guard.arm x).calculator.zone = .inside then e.raise x .revoked else e).guard.frame =
        e.guard.frame := by
    intro e x
    split <;> simp
  unfold Event.latchRevoked
  rw [Event.postFaults_guard, Event.computeLevel_frame, Event.computeLevel_frame]
  exact (h _ .B).trans (h _ .A)

@[simp] theorem Event.issue_frame (ev : Event) (x : Arm) (i : SlotIx) (p : Plan) :
    (ev.issue x i p).guard.frame = ev.guard.frame := by
  unfold Event.issue
  dsimp only
  split <;> simp

@[simp] theorem Event.endPlan_frame (ev : Event) (x : Arm) (i : SlotIx) :
    (ev.endPlan x i).guard.frame = ev.guard.frame := by
  unfold Event.endPlan
  split
  · split <;> simp
  · rfl

@[simp] theorem Event.endPlans_frame (ev : Event) : ev.endPlans.guard.frame = ev.guard.frame := by
  unfold Event.endPlans
  exact Event.foldl_frame (f := fun ev (j : Arm × SlotIx) => ev.endPlan j.1 j.2) (fun ev j => ev.endPlan_frame j.1 j.2) _
    { ev with judged := [] }

@[simp] theorem Event.endDraining_frame (ev : Event) : ev.endDraining.guard.frame = ev.guard.frame := by
  unfold Event.endDraining
  split <;> rfl

@[simp] theorem Event.letGo_frame (ev : Event) (cells : CellSet) : (ev.letGo cells).guard.frame = ev.guard.frame := by
  simp [Event.letGo]

@[simp] theorem Event.endHeld_frame (ev : Event) (k : ClaimKey) (o : EntryOutcome) :
    (ev.endHeld k o).guard.frame = ev.guard.frame := by
  unfold Event.endHeld
  split
  · rfl
  · dsimp only
    split
    · simp
    · split <;> simp

@[simp] theorem Event.complete_frame (ev : Event) (x : Arm) : (ev.complete x).guard.frame = ev.guard.frame :=
  Event.foldl_frame (fun ev k => ev.endHeld_frame k _) _ ev

@[simp] theorem Event.vacateProgress_frame (ev : Event) (x : Arm) :
    (ev.vacateProgress x).guard.frame = ev.guard.frame := by
  simp [Event.vacateProgress]

@[simp] theorem Event.endClaims_frame (ev : Event) (ks : List ClaimKey) :
    (ev.endClaims ks).1.guard.frame = ev.guard.frame := by
  induction ks generalizing ev with
  | nil => rfl
  | cons k ks ih =>
    unfold Event.endClaims
    split
    · exact ih ev
    · split
      · exact (ih _).trans (Event.endHeld_frame _ _ _)
      · exact (ih _).trans (Event.leaveWaiting_frame _ _ _)

end Sys2Proof.Machine


/-! # The store's form, an active section and the scrub cursor

`Guard.Sound` says of two guards that the second has each of three facts that the first has: the store's canonical form (R2),
an active section (R4), the scrub cursor in its list (R140, R141). Every kind of event is sound, whatever the other records
are, so each of the three holds after every step. -/

namespace Sys2Proof.Machine

/-! ## The visit list -/

/-- A section that is active and configured within the store gives the visit list a column. -/
theorem Guard.scrubLength_pos {g : Guard} (hs : g.someActive) (hr : 0 < g.cfg.nr) : 0 < g.scrubLength := by
  obtain ⟨s, -, ha⟩ := hs
  have hc : 8 * s ∈ g.scrubColumns := by
    refine List.mem_filter.2 ⟨List.mem_range.2 ?_, ?_⟩
    · simpa [Guard.isActive, ConfigSet.configured] using (Bool.and_eq_true_iff.1 ha).1
    · rwa [Nat.mul_div_cancel_left s (by decide)]
  exact Nat.mul_pos hr (List.length_pos_of_mem hc)

/-- A visit list that is not empty has a row and a column of an active section. -/
theorem Guard.of_scrubLength_pos {g : Guard} (h : 0 < g.scrubLength) (hn : g.cfg.nc ≤ 32) :
    g.someActive ∧ 0 < g.cfg.nr := by
  refine ⟨?_, Nat.pos_of_mul_pos_right h⟩
  obtain ⟨c, hc⟩ := List.exists_mem_of_length_pos (Nat.pos_of_mul_pos_left h)
  obtain ⟨hr, ha⟩ := List.mem_filter.1 hc
  have hlt : c / 8 < 4 := by have := List.mem_range.1 hr; omega
  refine ⟨c / 8, ?_, ha⟩
  simp only [sectionNumbers, List.mem_cons, List.not_mem_nil, or_false]
  omega

theorem Guard.cursorInList_pos {g : Guard} (h : g.cursorInList) : 0 < g.scrubLength := Nat.zero_lt_of_lt h

/-! ## The relation -/

structure Guard.Sound (g h : Guard) : Prop where
  store : storeWf g.store = true → storeWf h.store = true
  active : g.someActive ∧ g.cfg.nc ≤ 32 → h.someActive ∧ h.cfg.nc ≤ 32
  cursor : g.cursorInList ∧ g.cfg.nc ≤ 32 → h.cursorInList ∧ h.cfg.nc ≤ 32

theorem Guard.Sound.refl (g : Guard) : g.Sound g := ⟨id, id, id⟩

theorem Guard.Sound.trans {g h k : Guard} (a : g.Sound h) (b : h.Sound k) : g.Sound k :=
  ⟨b.store ∘ a.store, b.active ∘ a.active, b.cursor ∘ a.cursor⟩

/-- A change that leaves the frame alone is sound when it keeps the store's form. -/
theorem Guard.Sound.of_frame {g h : Guard} (e : h.frame = g.frame)
    (w : Machine.storeWf g.store = true → Machine.storeWf h.store = true) : g.Sound h := by
  have hg := Guard.grid_of_frame e
  refine ⟨w, ?_, ?_⟩
  · rw [Guard.someActive_of_grid hg, Guard.cfg_of_grid hg]
    exact id
  · rw [Guard.cursorInList_of_frame e, Guard.cfg_of_grid hg]
    exact id

/-- The shared operations' changes that leave the frame alone. -/
theorem Guard.Change.sound {g h : Guard} (c : Guard.Change g h) (e : h.frame = g.frame) : g.Sound h :=
  .of_frame e c.storeWf

/-- A change of records alone: neither the frame nor the store. -/
theorem Guard.Sound.of_same {g h : Guard} (e : h.frame = g.frame) (w : h.store = g.store) : g.Sound h :=
  .of_frame e (by rw [w]; exact id)

theorem Guard.Sound.onArm (g : Guard) (x : Arm) (f : ArmState → ArmState) : g.Sound (g.onArm x f) :=
  .of_same (by simp) (by simp)

/-- A scrub cursor set to the first cell stands in its list when there is one. -/
theorem Guard.Sound.scrub {g h : Guard} (e : h.grid = g.grid) (w : h.store = g.store)
    (p : g.cursorInList → h.scrub.pos < g.scrubLength) : g.Sound h := by
  refine ⟨by rw [w]; exact id, ?_, ?_⟩
  · rw [Guard.someActive_of_grid e, Guard.cfg_of_grid e]
    exact id
  · rintro ⟨hc, hn⟩
    refine ⟨?_, by rwa [Guard.cfg_of_grid e]⟩
    rw [Guard.cursorInList, Guard.scrubLength_of_grid e]
    exact p hc

theorem Guard.Sound.restartScrub (g : Guard) : g.Sound g.restartScrub := .scrub rfl rfl Guard.cursorInList_pos

theorem Guard.Sound.advanceScrub (g : Guard) : g.Sound g.advanceScrub := by
  refine .scrub ?_ ?_ fun h => ?_
  · unfold Guard.advanceScrub
    dsimp only
    split <;> rfl
  · unfold Guard.advanceScrub
    dsimp only
    split <;> rfl
  · have := Guard.advanceScrub_cursorInList h
    rwa [Guard.cursorInList, Guard.advanceScrub_scrubLength] at this

/-! ## Retirement and flush (R144, R145) -/

theorem Four.map_upd_comm {α β : Type} (q : Four α) (i : Nat) {f : α → α} {p : α → β} {f' : β → β}
    (h : ∀ a, p (f a) = f' (p a)) : (q.upd i f).map p = (q.map p).upd i f' := by
  match i with
  | 0 => simp [Four.upd, Four.map, h]
  | 1 => simp [Four.upd, Four.map, h]
  | 2 => simp [Four.upd, Four.map, h]
  | _ + 3 => simp [Four.upd, Four.map, h]

/-- The frame with a section retired. -/
theorem Guard.retireSection_frame (g : Guard) (s : Nat) :
    (g.retireSection s).frame = ((g.grid.1, g.grid.2.upd s fun _ => true), g.scrub) := by
  unfold Guard.retireSection
  dsimp only
  rw [Guard.reindex_frame]
  simp only [Guard.frame, Guard.grid, Guard.onSection]
  rw [Four.map_upd_comm g.sections s (f' := fun _ => true) fun _ => rfl]

/-- The frame after a retirement: the section retired, the scrub cursor restarted. -/
theorem Event.retire_frame (ev : Event) (s : Nat) : (ev.retire s).guard.frame =
    ((ev.guard.grid.1, ev.guard.grid.2.upd s fun _ => true),
      ⟨0, ev.guard.now, msSteps ev.guard.cfg.scrubPeriod, true⟩) := by
  have restart : ∀ {g h : Guard}, g.frame = h.frame → g.now = h.now →
      g.restartScrub.frame = (h.grid, ⟨0, h.now, msSteps h.cfg.scrubPeriod, true⟩) := by
    intro g h e n
    have hg := Guard.grid_of_frame e
    change (g.grid, (⟨0, g.now, msSteps g.cfg.scrubPeriod, true⟩ : ScrubCursor)) = _
    rw [hg, n, Guard.cfg_of_grid hg]
  have retired : ∀ {g h : Guard}, g.frame = h.frame → (g.retireSection s).frame = (h.retireSection s).frame := by
    intro g h e
    rw [Guard.retireSection_frame, Guard.retireSection_frame, Guard.grid_of_frame e, Guard.scrub_of_frame e]
  unfold Event.retire
  dsimp only
  rw [Event.runEvaluation_frame, Event.onGuard_guard, Event.post_guard]
  rw [restart (h := ev.guard.retireSection s)]
  · have hg := congrArg Prod.fst (Guard.retireSection_frame ev.guard s)
    have hc := (Guard.Change.retireSection ev.guard s).cfg
    have hn := (Guard.Change.retireSection ev.guard s).now
    rw [show (ev.guard.retireSection s).grid = _ from hg, hc, hn]
  · rw [Event.settle_frame]
    dsimp only
    rw [Event.latchRevoked_frame, Event.endClaims_frame]
    exact retired (ev.readCells_frame _ _)
  · rw [(Event.settle_change _).now]
    dsimp only
    rw [(Event.latchRevoked_change _ _).now, (Event.endClaims_change _ _).now]
    dsimp only
    rw [Event.onGuard_guard, (Guard.Change.retireSection _ s).now, (ev.readCells_change _ _).now,
      (Guard.Change.retireSection _ s).now]

@[simp] theorem Event.flush_frame (ev : Event) (s : Nat) : (ev.flush s).guard.frame = ev.guard.frame := by
  unfold Event.flush
  simp

/-- A section other than the one retired is active as before. -/
theorem Event.retire_isActive {ev : Event} {s t : Nat} (hs : s < 4) (ht : t < 4) (hne : t ≠ s) :
    (ev.retire s).guard.isActive t = ev.guard.isActive t := by
  have e := congrArg Prod.fst (ev.retire_frame s)
  have hr : (ev.retire s).guard.isRetired t = ev.guard.isRetired t := by
    have := congrArg (fun q : ConfigSet × Four Bool => q.2.get t) e
    simp only [Guard.frame, Guard.grid, Four.get_map, Four.get_upd] at this
    rw [if_neg (by omega)] at this
    exact this
  simp only [Guard.isActive, (ev.retire_change s).cfg, hr]

/-- A retirement made while another section is active leaves one active (R143). -/
theorem Event.retire_sound {ev : Event} {s : Nat} (ha : ev.guard.isActive s = true)
    (ho : ev.guard.otherActive s = true) : ev.guard.Sound (ev.retire s).guard := by
  have hcfg : (ev.retire s).guard.cfg = ev.guard.cfg := (ev.retire_change s).cfg
  have active : ev.guard.cfg.nc ≤ 32 → (ev.retire s).guard.someActive := by
    intro hn
    obtain ⟨t, ht, hta⟩ := List.any_eq_true.1 ho
    obtain ⟨hne, hta⟩ := Bool.and_eq_true_iff.1 hta
    have hs : s < 4 := by
      have hc := (Bool.and_eq_true_iff.1 ha).1
      have : 8 * s < ev.guard.cfg.nc := by simpa [ConfigSet.configured] using hc
      omega
    have ht4 : t < 4 := by
      simp only [sectionNumbers, List.mem_cons, List.not_mem_nil, or_false] at ht
      omega
    refine ⟨t, ht, ?_⟩
    rwa [Event.retire_isActive hs ht4 (by simpa using hne)]
  refine ⟨(ev.retire_change s).storeWf, ?_, ?_⟩
  · rintro ⟨-, hn⟩
    exact ⟨active hn, by rwa [hcfg]⟩
  · rintro ⟨hc, hn⟩
    have hr := (Guard.of_scrubLength_pos (Guard.cursorInList_pos hc) hn).2
    refine ⟨?_, by rwa [hcfg]⟩
    have hp : (ev.retire s).guard.scrub.pos = 0 := congrArg (fun q => q.2.pos) (ev.retire_frame s)
    rw [Guard.cursorInList, hp]
    exact Guard.scrubLength_pos (active hn) (by rwa [hcfg])

theorem Event.dealWithSections_sound (ev : Event) (n : Nat) : ev.guard.Sound (ev.dealWithSections n).guard := by
  induction n generalizing ev with
  | zero => exact .refl _
  | succ n ih =>
    unfold Event.dealWithSections
    split
    · exact .refl _
    · refine .trans ?_ (ih _)
      split
      · exact .refl _
      · rename_i s _ _ ha
        split
        · rename_i ho
          exact Event.retire_sound (by simpa using ha) ho
        · exact (ev.flush_change s).sound (ev.flush_frame s)

/-- The end of an event. -/
theorem Event.finish_sound (ev : Event) : ev.guard.Sound ev.finish.guard := by
  have evaluated := ev.evaluateIfCalled_change.sound ev.evaluateIfCalled_frame
  have dealt := ev.evaluateIfCalled.afterReply.dealWithSections_sound 8
  have ended := ((ev.evaluateIfCalled.afterReply.dealWithSections 8).endPlans_change).sound (Event.endPlans_frame _)
  exact ((evaluated.trans dealt).trans ended).trans ((Event.endDraining_change _).sound (Event.endDraining_frame _))

/-! ## CONFIGURE (R4, R18, R149) -/

/-- A clamped value of a common parameter lies in the parameter's range. -/
theorem Param.clamp_common {p : CommonParam} (v : Int) :
    p.range.1 ≤ (Param.common p).clamp v ∧ (Param.common p).clamp v ≤ p.range.2 := by
  unfold Param.clamp
  cases p <;> simp only [Param.range, CommonParam.range] <;> omega

theorem ConfigSet.onArm_sides (c : ConfigSet) (x : Arm) (f : ArmConfig → ArmConfig) :
    (c.onArm x f).nc = c.nc ∧ (c.onArm x f).nr = c.nr := by
  cases x <;> exact ⟨rfl, rfl⟩

/-- What one item does to the sides of the grid: each stays, or comes to lie in its range. -/
theorem ConfigSet.apply_sides (c : ConfigSet) (r : RawItem) :
    ((c.apply r).nc = c.nc ∨ 1 ≤ (c.apply r).nc ∧ (c.apply r).nc ≤ 32) ∧
      ((c.apply r).nr = c.nr ∨ 1 ≤ (c.apply r).nr ∧ (c.apply r).nr ≤ 24) := by
  unfold ConfigSet.apply
  split
  · exact ⟨.inl rfl, .inl rfl⟩
  · rename_i p _ ht
    have hp : r.stored = (Param.common p).clamp r.value := by
      unfold RawItem.target at ht
      unfold RawItem.stored
      split at ht
      · cases ht
      · rename_i q hq
        rw [hq]
        cases ht
        rfl
      · simp only [Option.map_eq_some_iff, Prod.mk.injEq, reduceCtorEq, false_and, and_false, exists_false] at ht
    have hr := Param.clamp_common (p := p) r.value
    rw [← hp] at hr
    cases p with
    | nc => exact ⟨.inr (by simp only [ConfigSet.putCommon, CommonParam.range] at hr ⊢; omega), .inl rfl⟩
    | nr => exact ⟨.inl rfl, .inr (by simp only [ConfigSet.putCommon, CommonParam.range] at hr ⊢; omega)⟩
    | _ => exact ⟨.inl rfl, .inl rfl⟩
  · obtain ⟨hc, hr⟩ := c.onArm_sides _ _
    exact ⟨.inl hc, .inl hr⟩
  · exact ⟨.inl rfl, .inl rfl⟩

/-- Items applied together keep the grid within the store, and with a row. -/
theorem ConfigSet.foldl_apply_sides (items : List RawItem) (c : ConfigSet) :
    (c.nc ≤ 32 → (items.foldl ConfigSet.apply c).nc ≤ 32) ∧ (c.nr ≤ 24 → (items.foldl ConfigSet.apply c).nr ≤ 24) ∧
      (0 < c.nr → 0 < (items.foldl ConfigSet.apply c).nr) := by
  induction items generalizing c with
  | nil => exact ⟨id, id, id⟩
  | cons r rs ih =>
    obtain ⟨h1, h2, h3⟩ := ih (c.apply r)
    obtain ⟨hc, hr⟩ := c.apply_sides r
    exact ⟨fun h => h1 (by omega), fun h => h2 (by omega), fun h => h3 (by omega)⟩

theorem ConfigSet.sameGeometry_sides {c d : ConfigSet} (h : c.sameGeometry d = true) : d.nc = c.nc ∧ d.nr = c.nr := by
  simp only [ConfigSet.sameGeometry, Bool.and_eq_true, decide_eq_true_eq] at h
  obtain ⟨⟨⟨⟨hc, hr⟩, -⟩, -⟩, -⟩ := h
  exact ⟨hc.symm, hr.symm⟩

/-- A section configured and not retired is active under the new configuration set. -/
theorem Guard.someActive_of_section {g h : Guard} {c : ConfigSet} (hc : h.cfg = c) (hr : h.isRetired = g.isRetired)
    (hn : g.noSectionFor c = false) : h.someActive := by
  simp only [Guard.noSectionFor, List.all_eq_false, Bool.or_eq_true, Bool.not_eq_true', not_or,
    Bool.not_eq_false, Bool.not_eq_true] at hn
  obtain ⟨s, hs, hcfg, hret⟩ := hn
  exact ⟨s, hs, by rw [Guard.isActive, hc, hr, hcfg, hret]; rfl⟩

/-- The sections active under a configuration set with as many columns. -/
theorem Guard.isActive_of_columns {g h : Guard} (hc : h.cfg.nc = g.cfg.nc) (hr : h.isRetired = g.isRetired) :
    h.isActive = g.isActive := by
  funext s
  rw [Guard.isActive, Guard.isActive, ConfigSet.configured, ConfigSet.configured, hc, hr]

/-- The records on a new grid: no fences, no vacating cells, the recorded boxes placed anew (R18, R47). -/
def Guard.placed (g : Guard) (c : ConfigSet) : Guard :=
  let place (a : ArmState) : ArmState := { a with vacate := [], calculator := a.calculator.replace c }
  { g with cfg := c, fences := [], a := place g.a, b := place g.b }

theorem Guard.changeGeometry_eq (g : Guard) (c : ConfigSet) :
    g.changeGeometry c = ((g.placed c).reindex storeCells).restartScrub := rfl

theorem Guard.restartScrub_grid (g : Guard) : g.restartScrub.grid = g.grid := rfl

@[simp] theorem Guard.changeGeometry_grid (g : Guard) (c : ConfigSet) :
    (g.changeGeometry c).grid = (c, g.grid.2) := by
  rw [Guard.changeGeometry_eq, Guard.restartScrub_grid, Guard.grid_of_frame (Guard.reindex_frame _ _)]
  rfl

theorem Guard.changeGeometry_scrub (g : Guard) (c : ConfigSet) :
    (g.changeGeometry c).scrub = ⟨0, g.now, msSteps c.scrubPeriod, true⟩ := by
  rw [Guard.changeGeometry_eq, Guard.restartScrub, Guard.reindex_now, Guard.reindex_cfg]
  rfl

theorem Guard.changeGeometry_wf (g : Guard) (c : ConfigSet) (w : storeWf g.store = true) :
    storeWf (g.changeGeometry c).store = true := by
  rw [Guard.changeGeometry_eq, Guard.restartScrub_store]
  exact Guard.reindex_wf _ _ w

theorem Event.actionsChanged_change (ev : Event) (old : ConfigSet) (x : Arm) :
    Guard.Change ev.guard (ev.actionsChanged old x).guard := by
  unfold Event.actionsChanged
  split
  · exact .refl _
  · exact ev.settleLevel_change x

@[simp] theorem Event.actionsChanged_frame (ev : Event) (old : ConfigSet) (x : Arm) :
    (ev.actionsChanged old x).guard.frame = ev.guard.frame := by
  unfold Event.actionsChanged
  split <;> simp

/-- A new grid, its scrub restarted, that keeps the retirements and a section that is not retired (R4, R141). -/
theorem Guard.Sound.of_geometry {g h : Guard} {c : ConfigSet} (hg : h.grid = (c, g.grid.2))
    (hw : Machine.storeWf g.store = true → Machine.storeWf h.store = true) (hp : h.scrub.pos = 0)
    (hc : g.cfg.nc ≤ 32 → c.nc ≤ 32) (hr : 0 < g.cfg.nr → 0 < c.nr) (hn : g.cfg.nc = c.nc ∨ g.noSectionFor c = false) :
    g.Sound h := by
  obtain rfl : h.cfg = c := congrArg Prod.fst hg
  have hret : h.isRetired = g.isRetired := Guard.isRetired_of_grid (g := { g with cfg := h.cfg }) hg
  have active : g.someActive → h.someActive := by
    intro ha
    rcases hn with hn | hn
    · rwa [Guard.someActive, Guard.isActive_of_columns hn.symm hret]
    · exact Guard.someActive_of_section rfl hret hn
  refine ⟨hw, fun ⟨ha, n⟩ => ⟨active ha, hc n⟩, fun ⟨hl, n⟩ => ⟨?_, hc n⟩⟩
  obtain ⟨ha, hpos⟩ := Guard.of_scrubLength_pos (Guard.cursorInList_pos hl) n
  rw [Guard.cursorInList, hp]
  exact Guard.scrubLength_pos (active ha) (hr hpos)

/-- The items of a CONFIGURE applied, the section check of R4 having passed. -/
theorem Guard.applyConfig_sound {g : Guard} {c : ConfigSet} (hc : g.cfg.nc ≤ 32 → c.nc ≤ 32)
    (hr : 0 < g.cfg.nr → 0 < c.nr) (hn : g.cfg.nc = c.nc ∨ g.noSectionFor c = false) :
    g.Sound (g.applyConfig c).guard := by
  unfold Guard.applyConfig
  dsimp only
  refine .trans ?_ (.trans ((Event.actionsChanged_change _ g.cfg .A).sound (by simp))
    ((Event.actionsChanged_change _ g.cfg .B).sound (by simp)))
  rw [Guard.event_guard]
  split
  · rename_i hg
    obtain ⟨hnc, hnr⟩ := ConfigSet.sameGeometry_sides hg
    have ha : ({ g with cfg := c } : Guard).isActive = g.isActive := Guard.isActive_of_columns hnc rfl
    refine ⟨id, fun ⟨h, n⟩ => ⟨?_, hc n⟩, fun ⟨h, n⟩ => ⟨?_, hc n⟩⟩
    · rwa [Guard.someActive, ha]
    · have hl : ({ g with cfg := c } : Guard).scrubLength = g.scrubLength := by
        simp only [Guard.scrubLength, Guard.scrubColumns, ha, hnc, hnr]
      rwa [Guard.cursorInList, hl]
  · exact Guard.Sound.of_geometry (g.changeGeometry_grid c) (g.changeGeometry_wf c)
      (by rw [Guard.changeGeometry_scrub]) hc hr hn

theorem Guard.serveConfigure_sound (g : Guard) (p : List Byte) : g.Sound (g.serveConfigure p).1.guard := by
  unfold Guard.serveConfigure
  split
  · exact .refl g
  · dsimp only
    split
    · exact .refl g
    · split
      · exact .refl g
      · split
        · exact .refl g
        · rename_i hn
          obtain ⟨h1, -, h3⟩ := ConfigSet.foldl_apply_sides (parseItems p) g.cfg
          refine Guard.applyConfig_sound h1 h3 ?_
          by_cases hc : g.cfg.nc = ((parseItems p).foldl ConfigSet.apply g.cfg).nc
          · exact .inl hc
          · exact .inr (by simpa [hc] using hn)

end Sys2Proof.Machine


/-! # Every kind of event is sound

The services of the requests one by one, the expiries, the scrub, and the supplies; then the statements about the store's form
and about an active section. -/

namespace Sys2Proof.Machine

/-! ## The requests of the supervisor -/

@[simp] theorem Guard.onUnit_store (g : Guard) (x : Arm) (f : ActionUnit → ActionUnit) :
    (g.onUnit x f).store = g.store := g.onArm_store x _

@[simp] theorem Guard.signal_store (g : Guard) (x : Arm) (e : CountEvent) (n : Nat) :
    (g.signal x e n).store = g.store := g.onArm_store x _

@[simp] theorem Guard.followLines_store (g : Guard) (x : Arm) : (g.followLines x).store = g.store := g.onUnit_store x _

theorem Guard.Sound.onUnit (g : Guard) (x : Arm) (f : ActionUnit → ActionUnit) : g.Sound (g.onUnit x f) := .onArm g x _

theorem Guard.Sound.signal (g : Guard) (x : Arm) (e : CountEvent) (n : Nat) : g.Sound (g.signal x e n) := .onArm g x _

/-- An event whose guard alone changes, by a change of an arm. -/
theorem Event.onArm_sound (ev : Event) (x : Arm) (f : ArmState → ArmState) :
    ev.guard.Sound (ev.onGuard fun g => g.onArm x f).guard := .onArm _ x f

theorem Event.onUnit_sound (ev : Event) (x : Arm) (f : ActionUnit → ActionUnit) :
    ev.guard.Sound (ev.onGuard fun g => g.onUnit x f).guard := .onUnit _ x f

theorem Guard.enterGuard_sound (g : Guard) : g.Sound g.enterGuard.1.guard := .of_same rfl rfl

theorem Guard.serveStart_sound (g : Guard) : g.Sound g.serveStart.1.guard := by
  unfold Guard.serveStart
  split
  · exact .refl g
  · exact g.enterGuard_sound
  · split
    · exact .refl g
    · exact g.enterGuard_sound

theorem Guard.serveStop_sound (g : Guard) : g.Sound g.serveStop.1.guard := by
  unfold Guard.serveStop
  split
  · exact .refl g
  · exact .trans ((g.event.withdrawAll_change Claim.isPlan).sound (by simp)) (.of_same rfl rfl)

theorem Guard.restarted_sound (g : Guard) : g.Sound g.restarted := by
  refine .trans (.of_same ?_ ?_) (.restartScrub _)
  · simp only [Guard.followLines_frame]
    rfl
  · simp only [Guard.followLines_store]

theorem Event.assertNoPosition_guard (ev : Event) (old : Guard) (x : Arm) :
    (ev.assertNoPosition old x).guard = ev.guard := by
  unfold Event.assertNoPosition
  split <;> rfl

/-- The guard at RESTART's retry of the store: its records are reset. -/
theorem Guard.serveRestart_guard (g : Guard) : ∃ ev : Event, ev.guard = g.restarted ∧
    g.serveRestart.1 = (ev.rewriteAll .restart storeCells).post (.toHost (.mode .setup .restart)) := by
  refine ⟨_, ?_, rfl⟩
  rw [Event.postFaults_guard, Event.assertNoPosition_guard, Event.assertNoPosition_guard]
  rfl

theorem Guard.serveRestart_sound (g : Guard) : g.Sound g.serveRestart.1.guard := by
  obtain ⟨ev, hev, e⟩ := g.serveRestart_guard
  rw [e, Event.post_guard]
  refine .trans ?_ ((ev.rewriteAll_change _ _).sound (ev.rewriteAll_frame _ _))
  rw [hev]
  exact g.restarted_sound

theorem Event.addFences_sound (ev : Event) (cells : CellSet) : ev.guard.Sound (ev.addFences cells).guard := by
  refine .trans ?_ ((Event.settle_change _).sound (Event.settle_frame _))
  refine .of_frame ?_ fun w => Guard.reindex_wf _ cells w
  exact Guard.reindex_frame _ cells

theorem Event.dropFences_sound (ev : Event) (cells : CellSet) : ev.guard.Sound (ev.dropFences cells).guard := by
  refine .trans ?_ ((Event.settle_change _).sound (Event.settle_frame _))
  refine .of_frame ?_ fun w => Guard.reindex_wf _ cells w
  exact Guard.reindex_frame _ cells

theorem Event.readCells_sound (ev : Event) (who : Reader) (cells : CellSet) :
    ev.guard.Sound (ev.readCells who cells).1.guard := (ev.readCells_change who cells).sound (by simp)

theorem Guard.serveFence_sound (g : Guard) (p : List Byte) : g.Sound (g.serveFence p).1.guard := by
  unfold Guard.serveFence
  split
  · exact .refl g
  · exact .trans (g.event.readCells_sound _ _) (Event.addFences_sound _ _)

theorem Guard.serveUnfence_sound (g : Guard) (p : List Byte) : g.Sound (g.serveUnfence p).1.guard := by
  unfold Guard.serveUnfence
  split
  · exact .refl g
  · exact .trans (g.event.readCells_sound _ _) (Event.dropFences_sound _ _)

theorem Guard.serveLoadPlan_sound (g : Guard) (p : List Byte) : g.Sound (g.serveLoadPlan p).1.guard := by
  unfold Guard.serveLoadPlan
  dsimp only
  split
  · split
    · exact .refl g
    · split
      · exact .refl g
      · split
        · exact .refl g
        · exact g.event.onArm_sound _ _
  · exact .refl g

theorem Guard.dropActive_sound (g : Guard) (x : Arm) : g.Sound (g.dropActive x).1.guard := by
  unfold Guard.dropActive
  split
  · exact .refl g
  · rename_i i p _
    dsimp only
    rw [Event.callEvaluation_guard]
    have withdrawn := (g.event.withdrawAll_change fun c => c.fromSlot x i).sound (by simp)
    have finished := withdrawn.trans (Event.onArm_sound _ x fun a =>
      match (a.slot i).plan? with
      | some q => a.finishSlot i q .dropped
      | none => a)
    refine finished.trans (.trans ?_ ((Event.endPlans_change _).sound (Event.endPlans_frame _)))
    exact .refl _

theorem Guard.dropLoaded_sound (g : Guard) (x : Arm) : g.Sound (g.dropLoaded x).1.guard := by
  unfold Guard.dropLoaded
  split
  · exact .refl g
  · exact g.event.onArm_sound _ _

theorem Guard.serveDropPlan_sound (g : Guard) (p : List Byte) : g.Sound (g.serveDropPlan p).1.guard := by
  unfold Guard.serveDropPlan
  split
  · exact g.dropActive_sound _
  · exact g.dropLoaded_sound _
  · exact .refl g

theorem Guard.Sound.addClaim (g : Guard) (c : Claim) : g.Sound (g.addClaim c) :=
  .of_same (by simp) (g.onArm_store c.arm _)

theorem Event.form_sound (ev : Event) (cells : CellSet) : ev.guard.Sound (ev.form cells).1.guard :=
  ev.readCells_sound .arbiter cells

theorem Guard.serveClaimFor_sound (g : Guard) (p : List Byte) : g.Sound (g.serveClaimFor p).1.guard := by
  unfold Guard.serveClaimFor
  dsimp only
  split
  · split
    · exact .refl g
    · split
      · exact g.event.form_sound _
      · exact .trans (g.event.form_sound _) (.addClaim _ _)
  · exact .refl g

theorem Event.endClaims_sound (ev : Event) (ks : List ClaimKey) : ev.guard.Sound (ev.endClaims ks).1.guard :=
  (ev.endClaims_change ks).sound (by simp)

theorem Event.settleLevel_sound (ev : Event) (x : Arm) : ev.guard.Sound (ev.settleLevel x).guard :=
  (ev.settleLevel_change x).sound (by simp)

theorem Guard.serveRevoke_sound (g : Guard) (p : List Byte) : g.Sound (g.serveRevoke p).1.guard := by
  unfold Guard.serveRevoke
  split
  · exact .refl g
  · rename_i x _
    refine .trans (g.event.endClaims_sound (g.keysWhere fun c => c.arm = x)) ?_
    dsimp only
    rw [Event.callEvaluation_guard]
    split
    · exact .trans ((Event.raiseRevoked_change _ _).sound (by simp)) (Event.settleLevel_sound _ _)
    · exact .refl _

theorem Event.lower_sound (ev : Event) (x : Arm) (src : Source) : ev.guard.Sound (ev.lower x src).guard :=
  ev.onUnit_sound x _

/-- A fold of operations that are each sound. -/
theorem Event.foldl_sound {α : Type} {f : Event → α → Event} (h : ∀ (ev : Event) (a : α), ev.guard.Sound (f ev a).guard)
    (as : List α) (ev : Event) : ev.guard.Sound (as.foldl f ev).guard := by
  induction as generalizing ev with
  | nil => exact .refl _
  | cons a as ih => exact .trans (h ev a) (ih _)

theorem Guard.serveClearFaults_sound (g : Guard) (p : List Byte) : g.Sound (g.serveClearFaults p).1.guard := by
  unfold Guard.serveClearFaults
  split
  · exact .refl g
  · exact .trans (Event.foldl_sound (f := fun ev src => ev.lower _ src) (fun ev src => ev.lower_sound _ src) _ g.event) (Event.settleLevel_sound _ _)

theorem Guard.serveGetStatus_sound (g : Guard) (l : Link) : g.Sound (g.serveGetStatus l).1.guard :=
  g.event.readCells_sound .report g.cfg.gridCells

theorem Guard.serveGetRow_sound (g : Guard) (p : List Byte) : g.Sound (g.serveGetRow p).1.guard := by
  unfold Guard.serveGetRow
  dsimp only
  split
  · exact .refl g
  · exact g.event.readCells_sound _ _

theorem Guard.serveSetCounters_sound (g : Guard) (p : List Byte) : g.Sound (g.serveSetCounters p).1.guard := by
  unfold Guard.serveSetCounters
  split
  · exact .refl g
  · split
    · exact .refl g
    · exact g.event.onArm_sound _ _

/-! ## The requests of an arm -/

theorem Event.raise_sound (ev : Event) (x : Arm) (src : Source) : ev.guard.Sound (ev.raise x src).guard := by
  unfold Event.raise
  split
  · exact .refl _
  · exact .of_same (by simp) (by simp)

theorem Event.setLive_sound (ev : Event) (x : Arm) (src : Source) (b : Bool) :
    ev.guard.Sound (ev.setLive x src b).guard := by
  unfold Event.setLive
  split
  · exact ev.raise_sound x src
  · exact ev.lower_sound x src

theorem Event.signal_sound (ev : Event) (x : Arm) (e : CountEvent) (n : Nat) :
    ev.guard.Sound (ev.signal x e n).guard := .signal _ x e n

theorem Event.intake_sound (ev : Event) (x : Arm) (s : Sample) : ev.guard.Sound (ev.intake x s).guard := by
  unfold Event.intake
  dsimp only
  refine .trans ?_ (Event.onArm_sound _ x _)
  refine .trans ?_ (Event.setLive_sound _ _ _ _)
  refine .trans ?_ (Event.signal_sound _ _ _ _)
  have counted := fun b : Bool => (ev.setLive_sound x .sampleEarly b).trans (Event.signal_sound _ x .samplesAccepted 1)
  split
  · exact .trans (counted _) (Event.signal_sound _ _ _ _)
  · exact counted _

theorem Event.calculate_sound (ev : Event) (x : Arm) (s : Sample) : ev.guard.Sound (ev.calculate x s).guard :=
  .trans (.trans (ev.onArm_sound x _) (Event.signal_sound _ x _ _)) (Event.lower_sound _ x _)

theorem Event.judge_sound (ev : Event) (x : Arm) : ev.guard.Sound (ev.judge x).guard :=
  .trans (ev.readCells_sound _ _) (Event.onArm_sound _ x _)

theorem Event.latchVerdict_sound (ev : Event) (x : Arm) : ev.guard.Sound (ev.latchVerdict x).guard := by
  have latch : ∀ (e : Event) (b : Bool) (src : Source), e.guard.Sound (if b then e.raise x src else e).guard := by
    intro e b src
    split
    · exact e.raise_sound x src
    · exact .refl _
  unfold Event.latchVerdict
  exact .trans (.trans (latch ev _ _) (latch _ _ _)) (latch _ _ _)

theorem Event.handOver_sound (ev : Event) (x : Arm) (previous : Zone) :
    ev.guard.Sound (ev.handOver x previous).guard := by
  unfold Event.handOver
  dsimp only
  refine .trans ?_ ((Event.vacateProgress_change _ _).sound (by simp))
  split
  · exact (ev.complete_change x).sound (by simp)
  · exact .refl _

theorem Event.acceptSample_sound (ev : Event) (x : Arm) (s : Sample) : ev.guard.Sound (ev.acceptSample x s).guard := by
  unfold Event.acceptSample
  dsimp only
  refine .trans ?_ ((Event.evaluateIfCalled_change _).sound (by simp))
  refine .trans ?_ (Event.handOver_sound _ _ _)
  have calculated := (ev.intake_sound x s).trans (Event.calculate_sound _ x s)
  have judged := (calculated.trans (Event.judge_sound _ x)).trans (Event.latchVerdict_sound _ x)
  exact (judged.trans (Event.settleLevel_sound _ x)).trans (.of_same rfl rfl)

theorem Guard.serveSample_sound (g : Guard) (x : Arm) (p : List Byte) : g.Sound (g.serveSample x p).1.guard := by
  unfold Guard.serveSample
  split
  · exact .refl g
  · exact g.event.acceptSample_sound x _

theorem Event.issue_sound (ev : Event) (x : Arm) (i : SlotIx) (p : Plan) : ev.guard.Sound (ev.issue x i p).guard := by
  unfold Event.issue
  dsimp only
  split <;> exact .of_same (by simp) (by simp)

theorem Event.tally_sound (ev : Event) (x : Arm) (i : SlotIx) (o : EntryOutcome) :
    ev.guard.Sound (ev.tally x i o).guard := (ev.tally_change x i o).sound (by simp)

theorem Guard.requestEntry_sound (g : Guard) (x : Arm) (i : SlotIx) (p : Plan) (e : PlanEntry) :
    g.Sound (g.requestEntry x i p e).1.guard := by
  unfold Guard.requestEntry
  dsimp only
  split
  · exact g.event.form_sound _
  · refine .trans (g.event.form_sound (e.shape.cells g.cfg)) ?_
    split
    · exact .trans (Event.issue_sound _ _ _ _) (Event.tally_sound _ _ _ _)
    · exact .trans (Event.issue_sound _ _ _ _) (.addClaim _ _)

theorem Guard.serveRequest_sound (g : Guard) (x : Arm) : g.Sound (g.serveRequest x).1.guard := by
  unfold Guard.serveRequest
  split
  · exact .refl g
  · split
    · exact .refl g
    · split
      · exact .refl g
      · split
        · exact .refl g
        · split
          · exact .refl g
          · exact g.requestEntry_sound _ _ _ _

theorem Guard.serveSkip_sound (g : Guard) (x : Arm) : g.Sound (g.serveSkip x).1.guard := by
  unfold Guard.serveSkip
  split
  · exact .refl g
  · split
    · exact .refl g
    · exact .trans (g.event.issue_sound _ _ _) (Event.tally_sound _ _ _ _)

theorem Guard.serveRelease_sound (g : Guard) (x : Arm) (p : List Byte) : g.Sound (g.serveRelease x p).1.guard := by
  unfold Guard.serveRelease
  dsimp only
  split
  · exact .refl g
  · split
    · exact .refl g
    · exact (g.event.endHeld_change _ _).sound (by simp)

theorem Guard.serve_sound (g : Guard) (l : Link) (kind : Byte) (p : List Byte) : g.Sound (g.serve l kind p).1.guard :=
  Guard.serve_cases (Q := fun ev => g.Sound ev.guard) g l kind p (.refl g) (g.serveConfigure_sound p)
    g.serveStart_sound g.serveStop_sound g.serveRestart_sound (g.serveFence_sound p) (g.serveUnfence_sound p)
    (g.serveLoadPlan_sound p) (g.serveDropPlan_sound p) (g.serveClaimFor_sound p) (g.serveRevoke_sound p)
    (g.serveClearFaults_sound p) (g.serveGetStatus_sound l) (g.serveGetRow_sound p) (g.serveSetCounters_sound p)

theorem Guard.serveArm_sound (g : Guard) (x : Arm) (kind : Byte) (p : List Byte) :
    g.Sound (g.serveArm x kind p).1.guard :=
  Guard.serveArm_cases (Q := fun ev => g.Sound ev.guard) g x kind p (.refl g) (g.event.onArm_sound x _) (g.serveSample_sound x p)
    (g.serveRequest_sound x) (g.serveSkip_sound x) (g.serveRelease_sound x p)

/-! ## Timers, scrub and power -/

theorem Guard.gapExpiry_sound (g : Guard) (x : Arm) : g.Sound (g.gapExpiry x).guard := by
  refine .trans ?_ (Event.settleLevel_sound _ x)
  refine .trans ?_ (Event.onArm_sound _ x _)
  exact .trans (g.quietEvent.raise_sound x .sampleGap) (Event.signal_sound _ _ _ _)

theorem Event.escalate_sound (ev : Event) (x : Arm) (e : Escalation) : ev.guard.Sound (ev.escalate x e).guard :=
  .of_same (by simp) (by simp [Event.escalate])

theorem Guard.slowExpiry_sound (g : Guard) (x : Arm) : g.Sound (g.slowExpiry x).guard := by
  unfold Guard.slowExpiry
  dsimp only
  have stopped : g.Sound (g.quietEvent.onGuard fun g => g.onUnit x fun u => { u with slowTimer := none }).guard :=
    g.quietEvent.onUnit_sound x _
  split
  · exact (stopped.trans (Event.escalate_sound _ x _)).trans (Event.settleLevel_sound _ x)
  · exact stopped

theorem Guard.holdExpiry_sound (g : Guard) (x : Arm) : g.Sound (g.holdExpiry x).guard := by
  unfold Guard.holdExpiry
  dsimp only
  have stopped : g.Sound (g.quietEvent.onGuard fun g => g.onUnit x fun u => { u with holdTimer := none }).guard :=
    g.quietEvent.onUnit_sound x _
  split
  · exact (stopped.trans (Event.escalate_sound _ x _)).trans (Event.settleLevel_sound _ x)
  · exact stopped

theorem Guard.leak_sound (g : Guard) : g.Sound g.leak := .of_same rfl rfl

theorem Guard.visit_sound (g : Guard) : g.Sound g.visit.guard :=
  .trans ((g.quietEvent.readCell_change .scrub _).sound (by simp)) (.advanceScrub _)

theorem Guard.waitStep_sound (g : Guard) (x : Arm) : g.Sound (g.waitStep x) := by
  unfold Guard.waitStep
  split
  · exact .refl g
  · exact .trans (.trans (.onArm g x _) (.onArm _ x _)) (.onArm _ x _)

theorem Guard.restraintStep_sound (g : Guard) (x : Arm) : g.Sound (g.restraintStep x) := by
  unfold Guard.restraintStep
  split
  · exact .refl g
  · exact .onArm g x _

theorem Guard.tick_sound (g : Guard) : g.Sound g.tick := by
  unfold Guard.tick
  dsimp only
  split
  · exact .of_same rfl rfl
  · have a := (g.restraintStep_sound .A).trans (Guard.waitStep_sound _ .A)
    have b := (a.trans (Guard.restraintStep_sound _ .B)).trans (Guard.waitStep_sound _ .B)
    exact b.trans (.of_same rfl rfl)

theorem Guard.changeLevel_sound (g : Guard) (x : Arm) (l : Level) : g.Sound (g.changeLevel x l) :=
  (Guard.Change.changeLevel g x l).sound (by simp)

theorem Guard.leaveInit_sound (g : Guard) : g.Sound g.leaveInit := by
  unfold Guard.leaveInit Guard.levelsFromSources
  dsimp only
  refine .trans (.trans (.trans ?_ (Guard.changeLevel_sound _ _ _)) (Guard.changeLevel_sound _ _ _)) (.restartScrub _)
  exact .of_same rfl rfl

theorem Guard.endInit_sound (g : Guard) : g.Sound g.endInit.guard :=
  .trans ((g.quietEvent.rewriteAll_change .init storeCells).sound (Event.rewriteAll_frame _ _ _)) (Guard.leaveInit_sound _)

theorem Guard.cutLines_sound (g : Guard) : g.Sound g.cutLines :=
  .of_same (by simp only [Guard.cutLines, Guard.followLines_frame]; rfl) (by simp [Guard.cutLines])

theorem Guard.powerOn_sound (g : Guard) : g.Sound { Guard.initial with findings := g.findings, reads := g.reads } := by
  have active : ({ Guard.initial with findings := g.findings, reads := g.reads } : Guard).someActive :=
    ⟨0, by decide, rfl⟩
  have columns : ({ Guard.initial with findings := g.findings, reads := g.reads } : Guard).cfg.nc ≤ 32 := Nat.le_refl 32
  exact ⟨fun _ => rfl, fun _ => ⟨active, columns⟩, fun _ => ⟨Guard.scrubLength_pos active (Nat.zero_lt_succ 23), columns⟩⟩

/-! ## Every step -/

/-- A fact that every sound change carries over holds after every step. -/
theorem Guard.Kept.of_sound {P : Guard → Prop} (h : ∀ g k : Guard, g.Sound k → P g → P k) : Guard.Kept P where
  powerOn g := h _ _ g.powerOn_sound
  permitLoss g := h _ _ (.trans g.cutLines_sound (.of_same rfl rfl))
  logicLoss g := h _ _ (.trans g.cutLines_sound (.of_same rfl rfl))
  shorted g x _ _ := h _ _ (.onArm g x _)
  initEnd g _ := h _ _ (.trans g.endInit_sound (Event.finish_sound _))
  serve g l kind p := h _ _ (.trans (g.serve_sound l kind p) (Event.finish_sound _))
  serveArm g x kind p _ := h _ _ (.trans (g.serveArm_sound x kind p) (Event.finish_sound _))
  gapExpiry g x _ := h _ _ (.trans (g.gapExpiry_sound x) (Event.finish_sound _))
  agingExpiry g _ c _ _ := h _ _ (.trans (h := (g.agingExpiry c.key).guard) (.of_same rfl rfl) (Event.finish_sound _))
  timeoutExpiry g _ c _ _ := h _ _ (.trans ((Event.bounce_change g.quietEvent c .timeout).sound
    (Event.leaveWaiting_frame _ _ _)) (Event.finish_sound _))
  slowExpiry g x _ := h _ _ (.trans (g.slowExpiry_sound x) (Event.finish_sound _))
  holdExpiry g x _ := h _ _ (.trans (g.holdExpiry_sound x) (Event.finish_sound _))
  leak g := h _ _ g.leak_sound
  visit g _ := h _ _ (.trans g.visit_sound (Event.finish_sound _))
  tick g := h _ _ g.tick_sound

/-- Settles O50: every kind of event writes the store through `storeWrite` alone. -/
theorem storeStaysCanonical : Obligations.StoreStaysCanonical :=
  fun _ _ h e => (Guard.Kept.of_sound (P := fun g => storeWf g.store = true) fun _ _ k => k.store).step e h

/-- Settles O56: a section is retired only while another is active, and a change of nc passes the section check of R4. -/
theorem someSectionStaysActive : Obligations.SomeSectionStaysActive :=
  fun _ _ h e => (Guard.Kept.of_sound (P := fun g => g.someActive ∧ g.cfg.nc ≤ 32) fun _ _ k => k.active).step e h

end Sys2Proof.Machine


/-! # The records, the map derived from them, and what keeps the two in agreement

`Guard.records` is what the entries are derived from (R5). A change that leaves it alone leaves the tray in order; one that
does not is followed by a reindex of the cells whose derived entry it can change (R6), and `Guard.tidy_reindex` says that this
is enough. -/

namespace Sys2Proof.Machine

/-! ## Cells and lists -/

theorem mem_addCell {c d : Cell} {s : CellSet} : d ∈ addCell c s ↔ d = c ∨ d ∈ s := by
  induction s with
  | nil => simp [addCell]
  | cons e es ih =>
    unfold addCell
    split
    · rename_i h
      subst h
      simp
    · split
      · simp
      · simp only [List.mem_cons, ih]
        tauto

theorem mem_unionCells {d : Cell} {a b : CellSet} : d ∈ unionCells a b ↔ d ∈ a ∨ d ∈ b := by
  unfold unionCells
  induction b generalizing a with
  | nil => simp
  | cons c cs ih =>
    rw [List.foldl_cons, ih, mem_addCell, List.mem_cons]
    tauto

theorem mem_minusCells {d : Cell} {a b : CellSet} : d ∈ minusCells a b ↔ d ∈ a ∧ d ∉ b := by
  simp [minusCells]

theorem mem_dropCell {c d : Cell} {a : CellSet} : d ∈ dropCell a c ↔ d ∈ a ∧ d ≠ c := by
  simp [dropCell]

theorem mem_cellsWhere {nc nr : Nat} {keepRow : Nat → Bool} {keepCol : Nat → Nat → Bool} {k : Cell} :
    k ∈ cellsWhere nc nr keepRow keepCol ↔
      k.row < nr ∧ keepRow k.row = true ∧ k.col < nc ∧ keepCol k.col k.row = true := by
  obtain ⟨c, r⟩ := k
  unfold cellsWhere
  constructor
  · intro h
    obtain ⟨r', hr', h⟩ := List.mem_flatMap.1 h
    split at h
    · rename_i hk
      obtain ⟨c', hc', e⟩ := List.mem_map.1 h
      cases e
      obtain ⟨hc', hkc⟩ := List.mem_filter.1 hc'
      exact ⟨List.mem_range.1 hr', hk, List.mem_range.1 hc', hkc⟩
    · cases h
  · rintro ⟨hr, hk, hc, hkc⟩
    refine List.mem_flatMap.2 ⟨r, List.mem_range.2 hr, ?_⟩
    rw [if_pos hk]
    exact List.mem_map.2 ⟨c, List.mem_filter.2 ⟨List.mem_range.2 hc, hkc⟩, rfl⟩

theorem ConfigSet.mem_gridCells {c : ConfigSet} {k : Cell} : k ∈ c.gridCells ↔ k.col < c.nc ∧ k.row < c.nr := by
  unfold ConfigSet.gridCells
  rw [mem_cellsWhere]
  tauto

theorem ConfigSet.inGrid_iff {c : ConfigSet} {k : Cell} : c.inGrid k = true ↔ k.col < c.nc ∧ k.row < c.nr := by
  simp [ConfigSet.inGrid]

theorem mem_storeCells {k : Cell} : k ∈ storeCells ↔ k.inStore := by
  unfold storeCells
  rw [mem_cellsWhere]
  unfold Cell.inStore
  tauto

theorem Shape.cells_inGrid {s : Shape} {cfg : ConfigSet} {k : Cell} (h : k ∈ s.cells cfg) : cfg.inGrid k = true := by
  obtain ⟨hr, -, hc, -⟩ := mem_cellsWhere.1 h
  exact ConfigSet.inGrid_iff.2 ⟨hc, hr⟩

theorem ConfigSet.inGrid_inStore {c : ConfigSet} {k : Cell} (hc : c.nc ≤ 32) (hr : c.nr ≤ 24) (h : c.inGrid k = true) :
    k.inStore := by
  obtain ⟨h1, h2⟩ := ConfigSet.inGrid_iff.1 h
  exact ⟨by omega, by omega⟩

/-! ## The records -/

/-- What the map shows of a claim, and what it is formed anew from. -/
def Claim.tray (c : Claim) : ClaimKey × Phase × Shape × CellSet × CellSet :=
  (c.key, c.phase, c.shape, c.effective, c.reserved)

/-- What the entries are derived from (R5). -/
def Guard.records (g : Guard) :=
  (g.grid, g.a.vacate, g.b.vacate, g.claims.map Claim.tray, g.fences, g.poisoned)

/-- The records name cells of the grid alone, give no cell to both arms, reserve for waiting claims alone, and tell claims
apart. -/
def Guard.recordsFit (g : Guard) : Prop := g.apart ∧ g.cellsInGrid ∧ g.heldReserveNothing ∧ g.keysDiffer

/-- The tray in order, its store in canonical form. -/
def Guard.tidy (g : Guard) : Prop := storeWf g.store = true ∧ g.mapAgrees ∧ g.recordsFit

theorem Guard.tidy_iff {g : Guard} : g.tidy ↔ storeWf g.store = true ∧ g.trayInOrder := Iff.rfl

section
variable {g h : Guard} (e : h.records = g.records)
include e

theorem Guard.grid_of_records : h.grid = g.grid := congrArg Prod.fst e

theorem Guard.cfg_of_records : h.cfg = g.cfg := Guard.cfg_of_grid (Guard.grid_of_records e)

theorem Guard.vacate_of_records (x : Arm) : (h.arm x).vacate = (g.arm x).vacate := by
  cases x
  · exact congrArg (fun r => r.2.1) e
  · exact congrArg (fun r => r.2.2.1) e

theorem Guard.trays_of_records : h.claims.map Claim.tray = g.claims.map Claim.tray := congrArg (fun r => r.2.2.2.1) e

theorem Guard.fences_of_records : h.fences = g.fences := congrArg (fun r => r.2.2.2.2.1) e

theorem Guard.poisoned_of_records : h.poisoned = g.poisoned := congrArg (fun r => r.2.2.2.2.2) e

theorem Guard.heldBy_of_records (x : Arm) (c : Cell) : h.heldBy x c = g.heldBy x c := by
  have := congrArg (fun l : List (ClaimKey × Phase × Shape × CellSet × CellSet) =>
    l.any fun t => t.2.1 = .held && t.1.arm = x && c ∈ t.2.2.2.1) (Guard.trays_of_records e)
  simp only [List.any_map] at this
  exact this

theorem Guard.reservedFor_of_records (c : Cell) : h.reservedFor c = g.reservedFor c := by
  have := congrArg (fun l : List (ClaimKey × Phase × Shape × CellSet × CellSet) =>
    (l.find? fun t => c ∈ t.2.2.2.2).map fun t => t.1.arm) (Guard.trays_of_records e)
  simp only [List.find?_map, Option.map_map] at this
  exact this

theorem Guard.keys_of_records : h.keys = g.keys := by
  have := congrArg (List.map Prod.fst) (Guard.trays_of_records e)
  simp only [List.map_map] at this
  exact this

theorem Guard.ownedBy_of_records (x : Arm) (c : Cell) : h.ownedBy x c = g.ownedBy x c := by
  rw [Guard.ownedBy, Guard.ownedBy, Guard.heldBy_of_records e, Guard.vacate_of_records e]

/-- A fact about what the map shows of each claim. -/
theorem Guard.forall_claims_of_records (p : ClaimKey × Phase × Shape × CellSet × CellSet → Prop)
    (hp : ∀ c ∈ g.claims, p c.tray) : ∀ c ∈ h.claims, p c.tray := by
  have := Guard.trays_of_records e
  intro c hc
  have hm : c.tray ∈ g.claims.map Claim.tray := this ▸ List.mem_map_of_mem hc
  obtain ⟨d, hd, ed⟩ := List.mem_map.1 hm
  exact ed ▸ hp d hd

end

/-- The derived entry of a cell depends on these alone. -/
theorem Guard.derive_congr {g h : Guard} {c : Cell} (grid : h.cfg.inGrid c = g.cfg.inGrid c)
    (held : ∀ x, h.heldBy x c = g.heldBy x c) (vacate : ∀ x, c ∈ (h.arm x).vacate ↔ c ∈ (g.arm x).vacate)
    (fence : c ∈ h.fences ↔ c ∈ g.fences) (poisoned : c ∈ h.poisoned ↔ c ∈ g.poisoned)
    (retired : g.cfg.inGrid c = true → h.isRetired c.sec = g.isRetired c.sec) (reserved : h.reservedFor c = g.reservedFor c) :
    h.derive c = g.derive c := by
  have owned : ∀ x, h.ownedBy x c = g.ownedBy x c := fun x => by
    rw [Guard.ownedBy, Guard.ownedBy, held, decide_eq_decide.2 (vacate x)]
  have owner : h.ownerOf c = g.ownerOf c := by rw [Guard.ownerOf, Guard.ownerOf, owned, owned]
  unfold Guard.derive Guard.fencedByRecord
  rw [grid]
  split
  · rename_i hin
    simp only [owner, vacate, fence, poisoned, retired hin, reserved]
  · simp only [poisoned]

theorem Guard.derive_of_records {g h : Guard} (e : h.records = g.records) (c : Cell) : h.derive c = g.derive c :=
  Guard.derive_congr (by rw [Guard.cfg_of_records e]) (fun x => Guard.heldBy_of_records e x c)
    (fun x => by rw [Guard.vacate_of_records e]) (by rw [Guard.fences_of_records e]) (by rw [Guard.poisoned_of_records e])
    (fun _ => by rw [Guard.isRetired_of_grid (Guard.grid_of_records e)]) (Guard.reservedFor_of_records e c)

theorem Guard.recordsFit_of_records {g h : Guard} (e : h.records = g.records) (f : g.recordsFit) : h.recordsFit := by
  obtain ⟨apart, ⟨nc, nr, poisoned, fences, va, vb, claims⟩, held, keys⟩ := f
  have grid : ∀ cells, h.allInGrid cells ↔ g.allInGrid cells := fun cells => by
    rw [Guard.allInGrid, Guard.allInGrid, Guard.cfg_of_records e]
  refine ⟨fun c => ?_, ⟨?_, ?_, ?_, ?_, ?_, ?_, ?_⟩, ?_, ?_⟩
  · rw [Guard.ownedBy_of_records e, Guard.ownedBy_of_records e]
    exact apart c
  · rwa [Guard.cfg_of_records e]
  · rwa [Guard.cfg_of_records e]
  · rwa [Guard.poisoned_of_records e]
  · rwa [grid, Guard.fences_of_records e]
  · rw [grid]
    exact Guard.vacate_of_records e .A ▸ va
  · rw [grid]
    exact Guard.vacate_of_records e .B ▸ vb
  · simp only [grid]
    exact Guard.forall_claims_of_records e (fun t => g.allInGrid t.2.2.2.1 ∧ g.allInGrid t.2.2.2.2) claims
  · exact Guard.forall_claims_of_records e (fun t => t.2.1 = .held → t.2.2.2.2 = []) held
  · rwa [Guard.keysDiffer, Guard.keys_of_records e]

/-- A change of neither the records nor the store leaves the tray in order. -/
theorem Guard.tidy_of_records {g h : Guard} (e : h.records = g.records) (w : h.store = g.store) (t : g.tidy) : h.tidy := by
  obtain ⟨wf, agrees, fit⟩ := t
  refine ⟨w ▸ wf, fun c hc => ?_, Guard.recordsFit_of_records e fit⟩
  rw [Guard.derive_of_records e, Guard.entryOf, w]
  exact agrees c hc

/-! ## Changes that leave the records alone -/

theorem Guard.onArm_records (g : Guard) (x : Arm) {f : ArmState → ArmState}
    (h : (f (g.arm x)).vacate = (g.arm x).vacate) : (g.onArm x f).records = g.records := by
  cases x
  · exact congrArg (fun v => (g.grid, v, g.b.vacate, g.claims.map Claim.tray, g.fences, g.poisoned)) h
  · exact congrArg (fun v => (g.grid, g.a.vacate, v, g.claims.map Claim.tray, g.fences, g.poisoned)) h

theorem Guard.onUnit_records (g : Guard) (x : Arm) (f : ActionUnit → ActionUnit) : (g.onUnit x f).records = g.records :=
  g.onArm_records x rfl

theorem Guard.signal_records (g : Guard) (x : Arm) (e : CountEvent) (n : Nat) : (g.signal x e n).records = g.records :=
  g.onArm_records x rfl

theorem Guard.followLines_records (g : Guard) (x : Arm) : (g.followLines x).records = g.records := g.onUnit_records x _

theorem Guard.changeLevel_records (g : Guard) (x : Arm) (l : Level) : (g.changeLevel x l).records = g.records :=
  (Guard.followLines_records _ x).trans (Guard.onUnit_records _ x _)

theorem ArmState.setSlot_vacate (a : ArmState) (i : SlotIx) (s : Slot) : (a.setSlot i s).vacate = a.vacate := by
  cases i <;> rfl

/-- A change of claims in what the map does not show. -/
theorem Guard.mapClaims_records (g : Guard) {f : Claim → Claim} (h : ∀ c ∈ g.claims, (f c).tray = c.tray) :
    ({ g with claims := g.claims.map f } : Guard).records = g.records := by
  have trays : (g.claims.map f).map Claim.tray = g.claims.map Claim.tray := by
    rw [List.map_map]
    exact List.map_congr_left h
  exact congrArg (fun t => (g.grid, g.a.vacate, g.b.vacate, t, g.fences, g.poisoned)) trays

theorem Guard.promote_records (g : Guard) (x : Arm) : (g.promote x).records = g.records :=
  g.mapClaims_records fun c _ => by
    split <;> rfl

theorem Guard.succeed_records (g : Guard) (c : Claim) : (g.succeed c).records = g.records := by
  unfold Guard.succeed
  split
  · exact g.promote_records _
  · rfl

theorem Guard.reindex_records (g : Guard) (cells : CellSet) : (g.reindex cells).records = g.records := by
  have hg : (g.reindex cells).grid = g.grid := Guard.grid_of_frame (g.reindex_frame cells)
  unfold Guard.records
  rw [hg, Guard.reindex_a, Guard.reindex_b, Guard.reindex_claims, Guard.reindex_fences, Guard.reindex_poisoned]

theorem Guard.onSection_records (g : Guard) (s : Nat) {f : SectionState → SectionState}
    (h : ∀ t, (f t).retired = t.retired) : (g.onSection s f).records = g.records := by
  have hg : (g.onSection s f).grid = g.grid := Guard.grid_of_frame (g.onSection_frame s h)
  unfold Guard.records
  rw [hg]
  rfl

theorem Guard.drawFinding_records (g : Guard) : g.drawFinding.2.records = g.records := by
  unfold Guard.drawFinding
  split <;> rfl

theorem Guard.drawFinding_store (g : Guard) : g.drawFinding.2.store = g.store := by
  unfold Guard.drawFinding
  split <;> rfl

/-! ## Entries written from the records -/

theorem Guard.reindexCell_records (g : Guard) (c : Cell) : (g.reindexCell c).records = g.records := rfl

theorem Guard.entryOf_reindex {g : Guard} {cells : CellSet} {d : Cell} (hw : storeWf g.store = true)
    (hc : allInStore cells) (hd : d.inStore) :
    (g.reindex cells).entryOf d = if d ∈ cells then g.derive d else g.entryOf d := by
  induction cells generalizing g with
  | nil => rfl
  | cons c cs ih =>
    have hcs : allInStore cs := fun k hk => hc k (List.mem_cons_of_mem _ hk)
    have hcin : c.inStore := hc c List.mem_cons_self
    refine (ih (g := g.reindexCell c) (g.reindexCell_wf c hw) hcs).trans ?_
    rw [Guard.derive_of_records (g.reindexCell_records c), Guard.entryOf_reindexCell g hw hcin hd]
    by_cases h : c = d
    · subst h
      simp
    · simp [List.mem_cons, Ne.symm h, h]

/-- The records changed, and the entries written that this can change: the tray is in order again (R6). -/
theorem Guard.tidy_reindex {g h : Guard} {cells : CellSet} (t : g.tidy) (w : h.store = g.store) (hc : allInStore cells)
    (hd : ∀ c, c.inStore → c ∉ cells → h.derive c = g.derive c) (hf : h.recordsFit) : (h.reindex cells).tidy := by
  obtain ⟨wf, agrees, -⟩ := t
  have hw : storeWf h.store = true := w ▸ wf
  refine ⟨h.reindex_wf cells hw, fun c hcin => ?_, Guard.recordsFit_of_records (h.reindex_records cells) hf⟩
  rw [Guard.derive_of_records (h.reindex_records cells), Guard.entryOf_reindex hw hc hcin]
  split
  · rfl
  · rename_i hn
    rw [hd c hcin hn, Guard.entryOf, w]
    exact agrees c hcin

/-- The records fit after any rewriting of every entry of the store. -/
theorem Guard.mapAgrees_reindex_store {g : Guard} (hw : storeWf g.store = true) : (g.reindex storeCells).mapAgrees := by
  intro c hc
  rw [Guard.derive_of_records (g.reindex_records _),
    Guard.entryOf_reindex hw (fun k hk => mem_storeCells.1 hk) hc, if_pos (mem_storeCells.2 hc)]

/-! ## Cells of a tidy guard -/

theorem Guard.tidy.inStore {g : Guard} (t : g.tidy) {c : Cell} (h : g.cfg.inGrid c = true) : c.inStore := by
  obtain ⟨-, -, -, ⟨nc, nr, -⟩, -⟩ := t
  exact ConfigSet.inGrid_inStore nc nr h

theorem Guard.tidy.allInStore {g : Guard} (t : g.tidy) {cells : CellSet} (h : g.allInGrid cells) : allInStore cells :=
  fun c hc => t.inStore (h c hc)

theorem Guard.tidy.columns {g : Guard} (t : g.tidy) : g.cfg.nc ≤ 32 := by
  obtain ⟨-, -, -, ⟨nc, -⟩, -⟩ := t
  exact nc

theorem Guard.tidy.effective {g : Guard} (t : g.tidy) {c : Claim} (h : c ∈ g.claims) : g.allInGrid c.effective := by
  obtain ⟨-, -, -, ⟨-, -, -, -, -, -, claims⟩, -⟩ := t
  exact (claims c h).1

theorem Guard.tidy.reserved {g : Guard} (t : g.tidy) {c : Claim} (h : c ∈ g.claims) : g.allInGrid c.reserved := by
  obtain ⟨-, -, -, ⟨-, -, -, -, -, -, claims⟩, -⟩ := t
  exact (claims c h).2

theorem Guard.tidy.vacate {g : Guard} (t : g.tidy) (x : Arm) : g.allInGrid (g.arm x).vacate := by
  obtain ⟨-, -, -, ⟨-, -, -, -, va, vb, -⟩, -⟩ := t
  cases x
  · exact va
  · exact vb

theorem Guard.tidy.keysDiffer {g : Guard} (t : g.tidy) : g.keysDiffer := t.2.2.2.2.2

theorem Guard.tidy.heldReserveNothing {g : Guard} (t : g.tidy) : g.heldReserveNothing := t.2.2.2.2.1

theorem Guard.tidy.agrees {g : Guard} (t : g.tidy) : g.mapAgrees := t.2.1

theorem Guard.tidy.fit {g : Guard} (t : g.tidy) : g.recordsFit := t.2.2

theorem Shape.cells_allInGrid (s : Shape) (g : Guard) : g.allInGrid (s.cells g.cfg) := fun _ h => Shape.cells_inGrid h

theorem Guard.sectionCells_allInGrid (g : Guard) (s : Nat) : g.allInGrid (g.sectionCells s) := fun _ h =>
  ConfigSet.inGrid_iff.2 (ConfigSet.mem_gridCells.1 (List.mem_filter.1 h).1)

/-! ## Claims by name -/

theorem Guard.claim?_some {g : Guard} {k : ClaimKey} {c : Claim} (h : g.claim? k = some c) : c ∈ g.claims ∧ c.key = k :=
  ⟨List.mem_of_find?_eq_some h, by simpa using List.find?_some h⟩

/-- Claims of one name are one claim. -/
theorem Guard.keysDiffer.eq {g : Guard} (hk : g.keysDiffer) {c d : Claim} (hc : c ∈ g.claims) (hd : d ∈ g.claims)
    (e : c.key = d.key) : c = d :=
  List.inj_on_of_nodup_map hk hc hd e

theorem Guard.keysDiffer.claim? {g : Guard} (hk : g.keysDiffer) {c : Claim} (hc : c ∈ g.claims) :
    g.claim? c.key = some c := by
  cases h : g.claim? c.key with
  | none => exact absurd (List.find?_eq_none.1 h c hc) (by simp)
  | some d =>
    obtain ⟨hd, e⟩ := Guard.claim?_some h
    rw [hk.eq hd hc e]

theorem Claim.isHeld_iff {c : Claim} : c.isHeld = true ↔ c.phase = .held := by simp [Claim.isHeld]

theorem Claim.isWaiting_iff {c : Claim} : c.isWaiting = true ↔ c.phase = .waiting := by simp [Claim.isWaiting]

theorem Claim.waiting_of_not_held {c : Claim} (h : c.phase ≠ .held) : c.phase = .waiting := by
  cases hp : c.phase
  · rfl
  · exact absurd hp h

theorem Guard.mem_keysWhere {g : Guard} {p : Claim → Bool} {k : ClaimKey} :
    k ∈ g.keysWhere p ↔ ∃ c ∈ g.claims, p c = true ∧ c.key = k := by
  simp [Guard.keysWhere, and_assoc]

theorem Guard.heldBy_iff {g : Guard} {x : Arm} {c : Cell} :
    g.heldBy x c = true ↔ ∃ k ∈ g.claims, k.phase = .held ∧ k.arm = x ∧ c ∈ k.effective := by
  simp [Guard.heldBy, Claim.isHeld, and_assoc]

theorem Guard.ownedBy_iff {g : Guard} {x : Arm} {c : Cell} :
    g.ownedBy x c = true ↔ g.heldBy x c = true ∨ c ∈ (g.arm x).vacate := by
  simp [Guard.ownedBy]

/-- Claims changed one by one in what holds no cell anew: who holds a cell. -/
theorem Guard.heldBy_mapClaims {g : Guard} {f : Claim → Claim} {x : Arm} {c : Cell}
    (h : ∀ k ∈ g.claims, ((f k).phase = .held ∧ (f k).arm = x ∧ c ∈ (f k).effective) ↔
      (k.phase = .held ∧ k.arm = x ∧ c ∈ k.effective)) :
    ({ g with claims := g.claims.map f } : Guard).heldBy x c = g.heldBy x c := by
  rw [Bool.eq_iff_iff, Guard.heldBy_iff, Guard.heldBy_iff]
  constructor
  · rintro ⟨k, hk, hp⟩
    obtain ⟨k', hk', rfl⟩ := List.mem_map.1 hk
    exact ⟨k', hk', (h k' hk').1 hp⟩
  · rintro ⟨k, hk, hp⟩
    exact ⟨f k, List.mem_map_of_mem hk, (h k hk).2 hp⟩

/-- Claims changed one by one in what neither adds nor drops a cell's reservation: whom the cell is reserved for. -/
theorem Guard.reservedFor_mapClaims {g : Guard} {f : Claim → Claim} {c : Cell}
    (h : ∀ k ∈ g.claims, (c ∈ (f k).reserved ↔ c ∈ k.reserved) ∧ (f k).arm = k.arm) :
    ({ g with claims := g.claims.map f } : Guard).reservedFor c = g.reservedFor c := by
  change ((g.claims.map f).find? fun k => c ∈ k.reserved).map (fun k => k.arm) =
    (g.claims.find? fun k => c ∈ k.reserved).map fun k => k.arm
  generalize g.claims = cs at h
  induction cs with
  | nil => rfl
  | cons k ks ih =>
    obtain ⟨hr, ha⟩ := h k List.mem_cons_self
    have hks := ih fun k hk => h k (List.mem_cons_of_mem _ hk)
    by_cases hm : c ∈ k.reserved
    · simp [hr, hm, ha]
    · simpa [hr, hm] using hks

/-- Claims that do not reserve a cell leave: whom the cell is reserved for. -/
theorem Guard.reservedFor_filterClaims {g : Guard} {p : Claim → Bool} {c : Cell}
    (h : ∀ k ∈ g.claims, p k = false → c ∉ k.reserved) :
    ({ g with claims := g.claims.filter p } : Guard).reservedFor c = g.reservedFor c := by
  change ((g.claims.filter p).find? fun k => c ∈ k.reserved).map (fun k => k.arm) =
    (g.claims.find? fun k => c ∈ k.reserved).map fun k => k.arm
  rw [List.find?_filter]
  congr 1
  generalize g.claims = cs at h
  induction cs with
  | nil => rfl
  | cons k ks ih =>
    have hks := ih fun k hk => h k (List.mem_cons_of_mem _ hk)
    rw [List.find?_cons, List.find?_cons, hks]
    cases hp : p k with
    | true => simp
    | false => simp [h k List.mem_cons_self hp]

/-- Claims that do not hold a cell leave: who holds the cell. -/
theorem Guard.heldBy_filterClaims {g : Guard} {p : Claim → Bool} {x : Arm} {c : Cell}
    (h : ∀ k ∈ g.claims, p k = false → k.phase = .held → k.arm = x → c ∈ k.effective →
      ∃ d ∈ g.claims, p d = true ∧ d.phase = .held ∧ d.arm = x ∧ c ∈ d.effective) :
    ({ g with claims := g.claims.filter p } : Guard).heldBy x c = g.heldBy x c := by
  rw [Bool.eq_iff_iff, Guard.heldBy_iff, Guard.heldBy_iff]
  constructor
  · rintro ⟨k, hk, hp⟩
    exact ⟨k, (List.mem_filter.1 hk).1, hp⟩
  · rintro ⟨k, hk, hh, ha, hc⟩
    cases hp : p k with
    | true => exact ⟨k, List.mem_filter.2 ⟨hk, hp⟩, hh, ha, hc⟩
    | false =>
      obtain ⟨d, hd, hpd, hd'⟩ := h k hk hp hh ha hc
      exact ⟨d, List.mem_filter.2 ⟨hd, hpd⟩, hd'⟩

end Sys2Proof.Machine


/-! # What each change of the records does to the tray

`Guard.Eases` is what reads, withdrawals and vacate progress come to: the tray is in order after them, and no arm owns or
reserves a cell that it did not before. The other changes, the grant among them, leave the tray in order. -/

namespace Sys2Proof.Machine

/-! ## Nothing that the map shows -/

/-- The records and the store are the same. -/
def Guard.SameTray (g h : Guard) : Prop := h.records = g.records ∧ h.store = g.store

theorem Guard.SameTray.refl (g : Guard) : g.SameTray g := ⟨rfl, rfl⟩

theorem Guard.SameTray.trans {g h k : Guard} (a : g.SameTray h) (b : h.SameTray k) : g.SameTray k :=
  ⟨b.1.trans a.1, b.2.trans a.2⟩

theorem Guard.SameTray.tidy {g h : Guard} (s : g.SameTray h) (t : g.tidy) : h.tidy := Guard.tidy_of_records s.1 s.2 t

theorem Guard.SameTray.onArm (g : Guard) (x : Arm) {f : ArmState → ArmState}
    (h : (f (g.arm x)).vacate = (g.arm x).vacate) : g.SameTray (g.onArm x f) := ⟨g.onArm_records x h, by simp⟩

/-! ## The relation -/

/-- What can become of a claim by reads and withdrawals: it reserves no more, holds no more, and what it has in its
effective set besides is of its own shape. -/
structure Claim.ShrinksTo (cfg : ConfigSet) (e d : Claim) : Prop where
  key : d.key = e.key
  phase : d.phase = e.phase
  shape : d.shape = e.shape
  reserved : ∀ c ∈ d.reserved, c ∈ e.reserved
  effective : ∀ c ∈ d.effective, c ∈ e.effective ∨ d.phase = .waiting ∧ c ∈ d.shape.cells cfg

theorem Claim.ShrinksTo.refl (cfg : ConfigSet) (c : Claim) : c.ShrinksTo cfg c :=
  ⟨rfl, rfl, rfl, fun _ h => h, fun _ h => .inl h⟩

theorem Claim.ShrinksTo.trans {cfg : ConfigSet} {b c d : Claim} (h : b.ShrinksTo cfg c) (k : c.ShrinksTo cfg d) :
    b.ShrinksTo cfg d := by
  refine ⟨k.key.trans h.key, k.phase.trans h.phase, k.shape.trans h.shape, fun e he => h.reserved e (k.reserved e he),
    fun e he => ?_⟩
  rcases k.effective e he with hc | hw
  · rcases h.effective e hc with hb | ⟨hp, hs⟩
    · exact .inl hb
    · exact .inr ⟨k.phase.trans hp, k.shape.symm ▸ hs⟩
  · exact .inr hw

theorem Claim.ShrinksTo.of_tray {cfg : ConfigSet} {e d : Claim} (h : d.tray = e.tray) : e.ShrinksTo cfg d := by
  simp only [Claim.tray, Prod.mk.injEq] at h
  obtain ⟨hk, hp, hs, he, hr⟩ := h
  exact ⟨hk, hp, hs, fun c hc => hr ▸ hc, fun c hc => .inl (he ▸ hc)⟩

structure Guard.Shrinks (g h : Guard) : Prop where
  cfg : h.cfg = g.cfg
  fences : h.fences = g.fences
  keys : h.keys.Sublist g.keys
  claims : ∀ d ∈ h.claims, ∃ e ∈ g.claims, e.ShrinksTo g.cfg d
  vacate : ∀ x, ∀ c ∈ (h.arm x).vacate, c ∈ (g.arm x).vacate

theorem Guard.Shrinks.trans {g h k : Guard} (a : g.Shrinks h) (b : h.Shrinks k) : g.Shrinks k where
  cfg := b.cfg.trans a.cfg
  fences := b.fences.trans a.fences
  keys := b.keys.trans a.keys
  claims d hd := by
    obtain ⟨e, he, hde⟩ := b.claims d hd
    obtain ⟨f, hf, hef⟩ := a.claims e he
    exact ⟨f, hf, hef.trans (a.cfg ▸ hde)⟩
  vacate x c hc := a.vacate x c (b.vacate x c hc)

theorem Guard.SameTray.shrinks {g h : Guard} (s : g.SameTray h) : g.Shrinks h where
  cfg := Guard.cfg_of_records s.1
  fences := Guard.fences_of_records s.1
  keys := Guard.keys_of_records s.1 ▸ List.Sublist.refl _
  claims d hd := by
    have hm : d.tray ∈ g.claims.map Claim.tray := Guard.trays_of_records s.1 ▸ List.mem_map_of_mem hd
    obtain ⟨e, he, ht⟩ := List.mem_map.1 hm
    exact ⟨e, he, .of_tray ht.symm⟩
  vacate x c hc := Guard.vacate_of_records s.1 x ▸ hc

/-- A cell that an arm did not own it does not own after. -/
theorem Guard.Shrinks.ownedBy {g h : Guard} (s : g.Shrinks h) {x : Arm} {c : Cell} (o : h.ownedBy x c = true) :
    g.ownedBy x c = true := by
  rw [Guard.ownedBy_iff, Guard.heldBy_iff] at o ⊢
  rcases o with ⟨d, hd, hp, ha, hc⟩ | hv
  · obtain ⟨e, he, hs⟩ := s.claims d hd
    refine .inl ⟨e, he, hs.phase ▸ hp, (congrArg ClaimKey.arm hs.key).symm.trans ha, ?_⟩
    rcases hs.effective c hc with h | ⟨hw, -⟩
    · exact h
    · rw [hp] at hw
      cases hw
  · exact .inr (s.vacate x c hv)

theorem Guard.Shrinks.not_ownedBy {g h : Guard} (s : g.Shrinks h) {x : Arm} {c : Cell} (o : g.ownedBy x c = false) :
    h.ownedBy x c = false := by
  cases e : h.ownedBy x c
  · rfl
  · rw [s.ownedBy e] at o
    cases o

theorem Guard.recordsFit_of_shrinks {g h : Guard} (s : g.Shrinks h) (f : g.recordsFit) (p : allInStore h.poisoned) :
    h.recordsFit := by
  obtain ⟨apart, ⟨nc, nr, -, fences, va, vb, claims⟩, held, keys⟩ := f
  have grid : ∀ cells, h.allInGrid cells ↔ g.allInGrid cells := fun cells => by
    rw [Guard.allInGrid, Guard.allInGrid, s.cfg]
  refine ⟨fun c ⟨ha, hb⟩ => apart c ⟨s.ownedBy ha, s.ownedBy hb⟩, ⟨s.cfg ▸ nc, s.cfg ▸ nr, p, ?_, ?_, ?_, ?_⟩, ?_,
    keys.sublist s.keys⟩
  · rw [grid, s.fences]
    exact fences
  · exact (grid _).2 fun c hc => va c (s.vacate .A c hc)
  · exact (grid _).2 fun c hc => vb c (s.vacate .B c hc)
  · intro d hd
    obtain ⟨e, he, hs⟩ := s.claims d hd
    obtain ⟨heff, hres⟩ := claims e he
    refine ⟨(grid _).2 fun c hc => ?_, (grid _).2 fun c hc => hres c (hs.reserved c hc)⟩
    rcases hs.effective c hc with h | ⟨-, h⟩
    · exact heff c h
    · exact Shape.cells_inGrid h
  · intro d hd hp
    obtain ⟨e, he, hs⟩ := s.claims d hd
    have hnil := held e he (hs.phase ▸ hp)
    exact List.eq_nil_iff_forall_not_mem.2 fun c hc => by simpa [hnil] using hs.reserved c hc

/-- The tray is in order after, and everything shrinks. -/
structure Guard.Eases (g h : Guard) : Prop where
  tidy : h.tidy
  shrinks : g.Shrinks h

theorem Guard.SameTray.eases {g h : Guard} (s : g.SameTray h) (t : g.tidy) : g.Eases h := ⟨s.tidy t, s.shrinks⟩

theorem Guard.Eases.refl {g : Guard} (t : g.tidy) : g.Eases g := (Guard.SameTray.refl g).eases t

theorem Guard.Eases.trans {g h k : Guard} (a : g.Eases h) (b : h.Eases k) : g.Eases k := ⟨b.tidy, a.shrinks.trans b.shrinks⟩

theorem Guard.Eases.then_same {g h k : Guard} (a : g.Eases h) (b : h.SameTray k) : g.Eases k := a.trans (b.eases a.tidy)

/-- Shrunk records with the entries written that this can change. -/
theorem Guard.eases_reindex {g h : Guard} {cells : CellSet} (t : g.tidy) (w : h.store = g.store) (s : g.Shrinks h)
    (p : allInStore h.poisoned) (hc : allInStore cells)
    (hd : ∀ c, c.inStore → c ∉ cells → h.derive c = g.derive c) : g.Eases (h.reindex cells) := by
  refine ⟨Guard.tidy_reindex t w hc hd (Guard.recordsFit_of_shrinks s t.fit p), ?_⟩
  have same : h.records = (h.reindex cells).records := (h.reindex_records cells).symm
  exact s.trans ⟨Guard.cfg_of_records same.symm, Guard.fences_of_records same.symm,
    Guard.keys_of_records same.symm ▸ List.Sublist.refl _,
    fun d hd => ⟨d, by rwa [Guard.reindex_claims] at hd, .refl _ _⟩,
    fun x c hc => by rwa [Guard.reindex_arm] at hc⟩

theorem Guard.tidy.poisoned {g : Guard} (t : g.tidy) : Machine.allInStore g.poisoned := by
  obtain ⟨-, -, -, ⟨-, -, poisoned, -⟩, -⟩ := t
  exact poisoned

/-- Entries written again from the records. -/
theorem Guard.reindex_eases {g : Guard} (t : g.tidy) {cells : CellSet} (hc : allInStore cells) :
    g.Eases (g.reindex cells) :=
  Guard.eases_reindex t rfl (Guard.SameTray.refl g).shrinks t.poisoned hc fun _ _ _ => rfl

/-! ## A cell poisoned (R138) -/

/-- The records of a poisoning, its entry not yet written. -/
def Guard.poisonRecords (g : Guard) (c : Cell) : Guard :=
  let g : Guard := { g with
    poisoned := addCell c g.poisoned
    claims := g.claims.map fun k => { k with
      effective := if k.isHeld then dropCell k.effective c else k.effective
      reserved := dropCell k.reserved c } }
  let g := (g.onVacate .A fun v => dropCell v c).onVacate .B fun v => dropCell v c
  g.onSection c.sec fun t => { t with poisonings := sat32 (t.poisonings + 1) }

theorem Guard.poisonCell_eq (g : Guard) (c : Cell) : g.poisonCell c = (g.poisonRecords c).reindex [c] := rfl

theorem Guard.poisonRecords_frame (g : Guard) (c : Cell) : (g.poisonRecords c).frame = g.frame := g.poisonCell_frame c

theorem Guard.poisonRecords_vacate (g : Guard) (c : Cell) (x : Arm) :
    ((g.poisonRecords c).arm x).vacate = dropCell (g.arm x).vacate c := by
  cases x <;> rfl

theorem Guard.poisonRecords_shrinks (g : Guard) (c : Cell) : g.Shrinks (g.poisonRecords c) where
  cfg := rfl
  fences := rfl
  keys := by
    have : (g.poisonRecords c).keys = g.keys := List.map_map
    rw [this]
  claims d hd := by
    obtain ⟨e, he, rfl⟩ := List.mem_map.1 hd
    refine ⟨e, he, rfl, rfl, rfl, fun b hb => (mem_dropCell.1 hb).1, fun b hb => .inl ?_⟩
    dsimp only at hb
    split at hb
    · exact (mem_dropCell.1 hb).1
    · exact hb
  vacate x b hb := by
    rw [Guard.poisonRecords_vacate] at hb
    exact (mem_dropCell.1 hb).1

/-- A poisoning changes the derived entry of its own cell alone. -/
theorem Guard.poisonRecords_derive (g : Guard) {c d : Cell} (hne : d ≠ c) :
    (g.poisonRecords c).derive d = g.derive d := by
  refine Guard.derive_congr rfl (fun x => ?_) (fun x => ?_) Iff.rfl ?_ (fun _ => ?_) ?_
  · refine Guard.heldBy_mapClaims (g := g) fun k _ => ?_
    dsimp only
    split <;> simp [mem_dropCell, hne]
  · rw [Guard.poisonRecords_vacate, mem_dropCell]
    simp [hne]
  · change d ∈ addCell c g.poisoned ↔ _
    rw [mem_addCell]
    simp [hne]
  · rw [Guard.isRetired_of_grid (Guard.grid_of_frame (g.poisonRecords_frame c))]
  · refine Guard.reservedFor_mapClaims (g := g) fun k _ => ⟨?_, rfl⟩
    rw [mem_dropCell]
    simp [hne]

theorem Guard.poisonRecords_poisoned {g : Guard} {c : Cell} (hc : c.inStore) (h : allInStore g.poisoned) :
    allInStore (g.poisonRecords c).poisoned := fun d hd => by
  rcases mem_addCell.1 hd with rfl | hd
  · exact hc
  · exact h d hd

theorem Guard.poisonCell_eases {g : Guard} (t : g.tidy) {c : Cell} (hc : c.inStore) : g.Eases (g.poisonCell c) := by
  rw [Guard.poisonCell_eq]
  refine Guard.eases_reindex t rfl (g.poisonRecords_shrinks c) (Guard.poisonRecords_poisoned hc t.poisoned)
    (by simpa [allInStore] using hc) fun d _ hn => ?_
  exact g.poisonRecords_derive (by simpa using hn)

/-! ## A waiting claim that leaves, and one that is changed -/

theorem Guard.removeClaim_shrinks (g : Guard) (k : ClaimKey) : g.Shrinks (g.removeClaim k) where
  cfg := rfl
  fences := rfl
  keys := List.Sublist.map _ List.filter_sublist
  claims d hd := ⟨d, (List.mem_filter.1 hd).1, .refl _ _⟩
  vacate _ _ hc := hc

theorem Guard.SameTray.succeed (g : Guard) (c : Claim) : g.SameTray (g.succeed c) := by
  refine ⟨g.succeed_records c, ?_⟩
  unfold Guard.succeed
  split <;> rfl

/-- A waiting claim of the table leaves it with its reservations (R82). -/
theorem Guard.leave_eases {g : Guard} (t : g.tidy) {c : Claim} (hc : c ∈ g.claims) (hw : c.phase = .waiting) :
    g.Eases (((g.removeClaim c.key).succeed c).reindex c.reserved) := by
  have same := Guard.SameTray.succeed (g.removeClaim c.key) c
  refine Guard.eases_reindex t same.2 ((g.removeClaim_shrinks c.key).trans same.shrinks) ?_
    (t.allInStore (t.reserved hc)) fun d _ hn => ?_
  · rw [Guard.poisoned_of_records same.1]
    exact t.poisoned
  · rw [Guard.derive_of_records same.1]
    have only : ∀ k ∈ g.claims, decide (k.key ≠ c.key) = false → k = c := fun k hk e =>
      t.keysDiffer.eq hk hc (by simpa using e)
    refine Guard.derive_congr rfl (fun x => ?_) (fun _ => Iff.rfl) Iff.rfl Iff.rfl (fun _ => rfl) ?_
    · refine Guard.heldBy_filterClaims (g := g) fun k hk e hh => ?_
      rw [only k hk e, hw] at hh
      cases hh
    · exact Guard.reservedFor_filterClaims (g := g) fun k hk e => only k hk e ▸ hn

/-- A claim of the table after one claim is changed: the changed one, or another as it was. -/
theorem Guard.mem_onClaim {g : Guard} (hk : g.keysDiffer) {c d : Claim} {f : Claim → Claim} (hc : c ∈ g.claims)
    (hd : d ∈ (g.onClaim c.key f).claims) : d = f c ∨ d ∈ g.claims ∧ d.key ≠ c.key := by
  obtain ⟨k, hm, rfl⟩ := List.mem_map.1 hd
  by_cases e : k.key = c.key
  · rw [if_pos e, hk.eq hm hc e]
    exact .inl rfl
  · rw [if_neg e]
    exact .inr ⟨hm, e⟩

theorem Guard.keys_onClaim (g : Guard) (k : ClaimKey) {f : Claim → Claim} (hf : ∀ c : Claim, c.keeps (f c)) :
    (g.onClaim k f).keys = g.keys :=
  Guard.keys_map g.claims _ fun c => by
    split
    · exact hf c
    · exact c.keeps_refl

section
variable {g : Guard} (t : g.tidy) {c : Claim} (hc : c ∈ g.claims) (hw : c.phase = .waiting) (f : Claim → Claim)
  (hf : ∀ k : Claim, k.keeps (f k)) (hp : (f c).phase = .waiting)
include t hc hw hp

/-- One waiting claim changed and still waiting: who holds a cell. -/
theorem Guard.heldBy_onWaiting (x : Arm) (d : Cell) : (g.onClaim c.key f).heldBy x d = g.heldBy x d := by
  refine Guard.heldBy_mapClaims (g := g) fun k hk => ?_
  split
  · rename_i e
    rw [t.keysDiffer.eq hk hc e, hp, hw]
    simp
  · rfl

include hf

/-- One waiting claim changed within the grid, and the entries written that this can change. -/
theorem Guard.onWaiting_tidy {cells : CellSet} (he : g.allInGrid (f c).effective) (hg : g.allInGrid (f c).reserved)
    (hcells : allInStore cells) (hr : ∀ d, d ∉ cells → (d ∈ (f c).reserved ↔ d ∈ c.reserved)) :
    ((g.onClaim c.key f).reindex cells).tidy := by
  have held := Guard.heldBy_onWaiting t hc hw f hp
  obtain ⟨apart, ⟨nc, nr, poisoned, fences, va, vb, claims⟩, nothing, differ⟩ := t.fit
  refine Guard.tidy_reindex t rfl hcells (fun d _ hn => ?_)
    ⟨fun d => ?_, ⟨nc, nr, poisoned, fences, va, vb, fun d hd => ?_⟩, fun d hd h => ?_, ?_⟩
  · refine Guard.derive_congr rfl (fun x => held x d) (fun _ => Iff.rfl) Iff.rfl Iff.rfl (fun _ => rfl) ?_
    refine Guard.reservedFor_mapClaims (g := g) fun k hk => ?_
    split
    · rename_i e
      rw [t.keysDiffer.eq hk hc e]
      exact ⟨hr d hn, congrArg ClaimKey.arm (hf c).1⟩
    · exact ⟨Iff.rfl, rfl⟩
  · rw [Guard.ownedBy, Guard.ownedBy, held, held]
    exact apart d
  · rcases Guard.mem_onClaim differ hc hd with rfl | ⟨hd, -⟩
    · exact ⟨he, hg⟩
    · exact claims d hd
  · rcases Guard.mem_onClaim differ hc hd with rfl | ⟨hd, -⟩
    · rw [hp] at h
      cases h
    · exact nothing d hd h
  · rw [Guard.keysDiffer, Guard.keys_onClaim g c.key hf]
    exact differ

end

/-- A claim formed anew: what it has kept of its `n` cells (R13). -/
def Claim.refitted (kept : CellSet) (n : Nat) (c : Claim) : Claim :=
  { c with effective := kept, excluded := n - kept.length, reserved := c.reserved.filter fun d => d ∈ kept }

theorem Guard.refit_eq (g : Guard) (k : ClaimKey) (old kept : CellSet) (n : Nat) :
    g.refit k old kept n = (g.onClaim k (Claim.refitted kept n)).reindex (minusCells old kept) := rfl

theorem Claim.refitted_keeps (kept : CellSet) (n : Nat) (c : Claim) : c.keeps (c.refitted kept n) :=
  ⟨rfl, rfl, rfl, rfl, rfl, rfl, id⟩

/-- A claim of another name changed is no change. -/
theorem Guard.onClaim_absent {g : Guard} {k : ClaimKey} (f : Claim → Claim) (h : ∀ c ∈ g.claims, c.key ≠ k) :
    g.onClaim k f = g := by
  have : g.claims.map (fun c => if c.key = k then f c else c) = g.claims.map id :=
    List.map_congr_left fun c hc => if_neg (h c hc)
  rw [Guard.onClaim, this, List.map_id]

/-- A waiting claim of that name formed anew from cells of its shape (R13). -/
theorem Guard.refit_eases {g : Guard} (t : g.tidy) {k : ClaimKey} {old kept : CellSet} {n : Nat}
    (hw : ∀ c ∈ g.claims, c.key = k → c.phase = .waiting ∧ (∀ d ∈ c.reserved, d ∈ old) ∧ ∀ d ∈ kept, d ∈ c.shape.cells g.cfg)
    (ho : allInStore old) : g.Eases (g.refit k old kept n) := by
  have hcells : allInStore (minusCells old kept) := fun d hd => ho d (mem_minusCells.1 hd).1
  rw [Guard.refit_eq]
  by_cases hk : ∃ c ∈ g.claims, c.key = k
  · obtain ⟨c, hc, rfl⟩ := hk
    obtain ⟨hp, hr, hs⟩ := hw c hc rfl
    have same := Guard.reindex_records (g.onClaim c.key (Claim.refitted kept n)) (minusCells old kept)
    refine ⟨Guard.onWaiting_tidy t hc hp (Claim.refitted kept n) (Claim.refitted_keeps kept n) hp
      (fun d hd => Shape.cells_inGrid (hs d hd)) (fun d hd => t.reserved hc d (List.mem_filter.1 hd).1) hcells
      fun d hn => ?_, ⟨(Guard.cfg_of_records same).trans rfl, (Guard.fences_of_records same).trans rfl,
        ?_, fun d hd => ?_, fun x b hb => ?_⟩⟩
    · simp only [Claim.refitted, List.mem_filter, decide_eq_true_eq, and_iff_left_iff_imp]
      intro hd
      by_contra hnk
      exact hn (mem_minusCells.2 ⟨hr d hd, hnk⟩)
    · rw [Guard.keys_of_records same, Guard.keys_onClaim g c.key (Claim.refitted_keeps kept n)]
    · rw [Guard.reindex_claims] at hd
      rcases Guard.mem_onClaim t.keysDiffer hc hd with rfl | ⟨hd, -⟩
      · exact ⟨c, hc, rfl, rfl, rfl, fun b hb => (List.mem_filter.1 hb).1, fun b hb => .inr ⟨hp, hs b hb⟩⟩
      · exact ⟨d, hd, .refl _ _⟩
    · rwa [Guard.reindex_arm, Guard.onClaim_arm] at hb
  · rw [Guard.onClaim_absent _ fun c hc e => hk ⟨c, hc, e⟩]
    exact Guard.reindex_eases t hcells

/-- The reservation step of a waiting claim (R76). -/
theorem Guard.reserve_tidy {g : Guard} (t : g.tidy) {c : Claim} (hc : c ∈ g.claims) (hw : c.phase = .waiting) :
    (g.reserve c).tidy := by
  have hin : g.allInGrid (unionCells c.reserved (minusCells c.effective (g.keptFrom c))) := fun d hd => by
    rcases mem_unionCells.1 hd with h | h
    · exact t.reserved hc d h
    · exact t.effective hc d (mem_minusCells.1 h).1
  refine Guard.onWaiting_tidy t hc hw (fun k => { k with reserving := g.rankOf c, reserved := _ })
    (fun _ => ⟨rfl, rfl, rfl, rfl, rfl, rfl, id⟩) hw
    (show g.allInGrid c.effective from t.effective hc) hin (t.allInStore hin) fun d hn => ?_
  exact ⟨fun h => absurd h hn, fun h => absurd (mem_unionCells.2 (.inl h)) hn⟩

/-! ## The grant (R74) -/

/-- The two arms in any order. -/
theorem Guard.apart_iff {g : Guard} : g.apart ↔ ∀ x c, g.ownedBy x c = true → g.ownedBy x.other c = false := by
  constructor
  · intro h x c hx
    rw [Bool.eq_false_iff]
    intro ho
    cases x
    · exact h c ⟨hx, ho⟩
    · exact h c ⟨ho, hx⟩
  · rintro h c ⟨ha, hb⟩
    rw [show g.ownedBy .B c = false from h .A c ha] at hb
    cases hb

/-- A cell owned after, whom it was owned by: nobody comes to own a cell but one arm, which the other does not own. -/
theorem Guard.apart_of_owner {g h : Guard} {x : Arm} {p : Cell → Prop} (a : g.apart)
    (o : ∀ y c, h.ownedBy y c = true → g.ownedBy y c = true ∨ y = x ∧ p c) (free : ∀ c, p c → g.ownedBy x.other c = false) :
    h.apart := by
  have both : ∀ c, h.ownedBy x c = true → h.ownedBy x.other c = true → False := by
    intro c hx ho
    have ho : g.ownedBy x.other c = true := by
      rcases o _ c ho with ho | ⟨e, -⟩
      · exact ho
      · cases x <;> cases e
    rcases o x c hx with hx | ⟨-, hp⟩
    · rw [Guard.apart_iff.1 a x c hx] at ho
      cases ho
    · rw [free c hp] at ho
      cases ho
  rintro c ⟨ha, hb⟩
  cases x
  · exact both c ha hb
  · exact both c hb ha

theorem Guard.onVacate_vacate (g : Guard) (x y : Arm) (f : CellSet → CellSet) :
    ((g.onVacate x f).arm y).vacate = if x = y then f (g.arm y).vacate else (g.arm y).vacate := by
  rw [Guard.onVacate, Guard.arm_onArm_eq]
  split <;> rfl

theorem Guard.onVacate_heldBy (g : Guard) (x : Arm) (f : CellSet → CellSet) : (g.onVacate x f).heldBy = g.heldBy := by
  funext y c
  rw [Guard.heldBy, Guard.heldBy, Guard.onVacate, Guard.onArm_claims]

/-- The records of a grant, its entries not yet written. -/
def Guard.grantRecords (g : Guard) (c : Claim) : Guard :=
  (g.onClaim c.key Claim.granted).onVacate c.arm fun v => minusCells v c.effective

/-- A grant is its records, what the map does not show, and the entries of the claim's cells. -/
theorem Guard.grant_eq (g : Guard) (c : Claim) : ∃ h, (g.grantRecords c).SameTray h ∧
    g.grant c = h.reindex (unionCells c.effective c.reserved) :=
  ⟨{ (g.grantRecords c).succeed c with lastGranted := c.arm }, .trans (.succeed _ c) ⟨rfl, rfl⟩, rfl⟩

theorem Guard.mem_grantRecords_vacate {g : Guard} {c : Claim} {x : Arm} {d : Cell} :
    d ∈ ((g.grantRecords c).arm x).vacate ↔ d ∈ (g.arm x).vacate ∧ (x = c.arm → d ∉ c.effective) := by
  rw [Guard.grantRecords, Guard.onVacate_vacate, Guard.onClaim_arm]
  split
  · rename_i e
    simp [mem_minusCells, e]
  · rename_i e
    simp [Ne.symm e]

theorem Claim.granted_keeps (c : Claim) : c.keeps c.granted := ⟨rfl, rfl, rfl, rfl, rfl, rfl, fun _ => rfl⟩

section
variable (g : Guard) (c : Claim)

@[simp] theorem Guard.grantRecords_cfg : (g.grantRecords c).cfg = g.cfg := Guard.onArm_cfg _ _ _

@[simp] theorem Guard.grantRecords_claims : (g.grantRecords c).claims = (g.onClaim c.key Claim.granted).claims :=
  Guard.onArm_claims _ _ _

@[simp] theorem Guard.grantRecords_fences : (g.grantRecords c).fences = g.fences := Guard.onArm_fences _ _ _

@[simp] theorem Guard.grantRecords_poisoned : (g.grantRecords c).poisoned = g.poisoned := Guard.onArm_poisoned _ _ _

@[simp] theorem Guard.grantRecords_store : (g.grantRecords c).store = g.store := Guard.onArm_store _ _ _

@[simp] theorem Guard.grantRecords_sections : (g.grantRecords c).sections = g.sections := Guard.onArm_sections _ _ _

end

section
variable {g : Guard} (t : g.tidy) {c : Claim} (hc : c ∈ g.claims)
include t hc

theorem Guard.grantRecords_derive {d : Cell} (he : d ∉ c.effective) (hr : d ∉ c.reserved) :
    (g.grantRecords c).derive d = g.derive d := by
  refine Guard.derive_congr (by simp) (fun x => ?_) (fun x => ?_) (by simp) (by simp)
    (fun _ => by simp [Guard.isRetired]) ?_
  · rw [Guard.grantRecords, Guard.onVacate_heldBy]
    refine Guard.heldBy_mapClaims (g := g) fun k hk => ?_
    split
    · rename_i e
      rw [t.keysDiffer.eq hk hc e]
      simp [Claim.granted, he]
    · rfl
  · rw [Guard.mem_grantRecords_vacate]
    simp [he]
  · rw [Guard.reservedFor, Guard.grantRecords_claims]
    refine Guard.reservedFor_mapClaims (g := g) fun k hk => ?_
    split
    · rename_i e
      rw [t.keysDiffer.eq hk hc e]
      exact ⟨by simp [Claim.granted, hr], rfl⟩
    · exact ⟨Iff.rfl, rfl⟩

theorem Guard.grantRecords_fit (free : ∀ d ∈ c.effective, g.ownedBy c.arm.other d = false) :
    (g.grantRecords c).recordsFit := by
  obtain ⟨apart, ⟨nc, nr, poisoned, fences, va, vb, claims⟩, nothing, differ⟩ := t.fit
  have grid : ∀ cells, (g.grantRecords c).allInGrid cells ↔ g.allInGrid cells := fun cells => by
    rw [Guard.allInGrid, Guard.allInGrid, Guard.grantRecords_cfg]
  refine ⟨?_, ⟨by simpa using nc, by simpa using nr, by simpa using poisoned, ?_, ?_, ?_, fun d hd => ?_⟩,
    fun d hd h => ?_, ?_⟩
  · refine Guard.apart_of_owner (p := fun d => d ∈ c.effective) apart (fun x d h => ?_) free
    rcases Guard.ownedBy_iff.1 h with h | h
    · obtain ⟨k, hk, hp, ha, hd⟩ := Guard.heldBy_iff.1 h
      rw [Guard.grantRecords_claims] at hk
      rcases Guard.mem_onClaim differ hc hk with rfl | ⟨hk, -⟩
      · exact .inr ⟨ha.symm, hd⟩
      · exact .inl (Guard.ownedBy_iff.2 (.inl (Guard.heldBy_iff.2 ⟨k, hk, hp, ha, hd⟩)))
    · exact .inl (Guard.ownedBy_iff.2 (.inr (Guard.mem_grantRecords_vacate.1 h).1))
  · rw [grid, Guard.grantRecords_fences]
    exact fences
  · exact (grid _).2 fun d hd => va d (Guard.mem_grantRecords_vacate (x := .A).1 hd).1
  · exact (grid _).2 fun d hd => vb d (Guard.mem_grantRecords_vacate (x := .B).1 hd).1
  · rw [grid, grid]
    rw [Guard.grantRecords_claims] at hd
    rcases Guard.mem_onClaim differ hc hd with rfl | ⟨hd, -⟩
    · exact ⟨(claims c hc).1, fun _ h => by cases h⟩
    · exact claims d hd
  · rw [Guard.grantRecords_claims] at hd
    rcases Guard.mem_onClaim differ hc hd with rfl | ⟨hd, -⟩
    · rfl
    · exact nothing d hd h
  · have keys := Guard.keys_onClaim g c.key Claim.granted_keeps
    rw [Guard.keys] at keys
    rw [Guard.keysDiffer, Guard.keys, Guard.grantRecords_claims, keys]
    exact differ

/-- A claim granted whose cells the other arm owns none of. -/
theorem Guard.grant_tidy (free : ∀ d ∈ c.effective, g.ownedBy c.arm.other d = false) : (g.grant c).tidy := by
  obtain ⟨h, same, e⟩ := g.grant_eq c
  have hin : g.allInGrid (unionCells c.effective c.reserved) := fun d hd => by
    rcases mem_unionCells.1 hd with h | h
    · exact t.effective hc d h
    · exact t.reserved hc d h
  rw [e]
  refine Guard.tidy_reindex t (same.2.trans (by simp)) (t.allInStore hin) (fun d _ hn => ?_)
    (Guard.recordsFit_of_records same.1 (Guard.grantRecords_fit t hc free))
  rw [mem_unionCells, not_or] at hn
  rw [Guard.derive_of_records same.1, Guard.grantRecords_derive t hc hn.1 hn.2]

end

/-! ## Held claims that end, and vacate progress (R89, R94) -/

theorem Guard.mem_ownCellsOf {g : Guard} {c : Claim} {d : Cell} : d ∈ g.ownCellsOf c ↔ d ∈ c.effective ∧
    ∀ k ∈ g.claims, k.phase = .held → k.arm = c.arm → d ∈ k.effective → k.key = c.key := by
  simp only [Guard.ownCellsOf, List.mem_filter, Bool.not_eq_true', List.any_eq_false, Bool.and_eq_true, decide_eq_true_eq,
    Claim.isHeld, not_and, and_imp]
  refine and_congr Iff.rfl (forall_congr' fun k => forall_congr' fun _ => ?_)
  tauto

section
variable {g h : Guard} (t : g.tidy) {c : Claim} (hc : c ∈ g.claims) (hp : c.phase = .held)
  (same : (g.removeClaim c.key).SameTray h)
include t hc hp same

theorem Guard.derive_release {d : Cell} (hn : d ∉ g.ownCellsOf c) : h.derive d = g.derive d := by
  have only : ∀ k ∈ g.claims, decide (k.key ≠ c.key) = false → k = c := fun k hk e =>
    t.keysDiffer.eq hk hc (by simpa using e)
  rw [Guard.derive_of_records same.1]
  refine Guard.derive_congr rfl (fun x => ?_) (fun _ => Iff.rfl) Iff.rfl Iff.rfl (fun _ => rfl) ?_
  · refine Guard.heldBy_filterClaims (g := g) fun k hk e _ ha hd => ?_
    obtain rfl := only k hk e
    by_contra none
    refine hn (Guard.mem_ownCellsOf.2 ⟨hd, fun k' hk' hp' ha' hd' => ?_⟩)
    by_contra ne
    exact none ⟨k', hk', by simpa using ne, hp', ha'.trans ha, hd'⟩
  · refine Guard.reservedFor_filterClaims (g := g) fun k hk e => ?_
    rw [only k hk e, t.heldReserveNothing c hc hp]
    exact List.not_mem_nil

/-- A held claim ends and its cells are let go. -/
theorem Guard.letGo_tidy : (h.reindex (g.ownCellsOf c)).tidy := by
  have s := (g.removeClaim_shrinks c.key).trans same.shrinks
  have p : allInStore h.poisoned := by
    rw [Guard.poisoned_of_records same.1]
    exact t.poisoned
  exact Guard.tidy_reindex t same.2 (t.allInStore fun d hd => t.effective hc d (Guard.mem_ownCellsOf.1 hd).1)
    (fun d _ hn => Guard.derive_release t hc hp same hn) (Guard.recordsFit_of_shrinks s t.fit p)

/-- A held claim ends and its cells join the arm's vacate set. -/
theorem Guard.joinVacate_tidy :
    ((h.onVacate c.arm fun v => unionCells v (g.ownCellsOf c)).reindex (g.ownCellsOf c)).tidy := by
  have s := (g.removeClaim_shrinks c.key).trans same.shrinks
  have inEffective : ∀ d ∈ g.ownCellsOf c, d ∈ c.effective := fun d hd => (Guard.mem_ownCellsOf.1 hd).1
  have hin : g.allInGrid (g.ownCellsOf c) := fun d hd => t.effective hc d (inEffective d hd)
  have vacate : ∀ x d, d ∈ ((h.onVacate c.arm fun v => unionCells v (g.ownCellsOf c)).arm x).vacate ↔
      d ∈ (h.arm x).vacate ∨ x = c.arm ∧ d ∈ g.ownCellsOf c := fun x d => by
    rw [Guard.onVacate_vacate]
    split
    · rename_i e
      simp [mem_unionCells, e]
    · rename_i e
      simp [Ne.symm e]
  have p : allInStore h.poisoned := by
    rw [Guard.poisoned_of_records same.1]
    exact t.poisoned
  obtain ⟨apart, ⟨nc, nr, poisoned, fences, va, vb, claims⟩, nothing, differ⟩ := Guard.recordsFit_of_shrinks s t.fit p
  have hin' : h.allInGrid (g.ownCellsOf c) := fun d hd => by
    rw [s.cfg]
    exact hin d hd
  have joined : ∀ x d, (h.onVacate c.arm fun v => unionCells v (g.ownCellsOf c)).ownedBy x d = true →
      g.ownedBy x d = true := fun x d ho => by
    rw [Guard.ownedBy_iff, Guard.onVacate_heldBy, vacate] at ho
    rcases ho with ho | ho | ⟨rfl, hd⟩
    · exact s.ownedBy (Guard.ownedBy_iff.2 (.inl ho))
    · exact s.ownedBy (Guard.ownedBy_iff.2 (.inr ho))
    · exact Guard.ownedBy_iff.2 (.inl (Guard.heldBy_iff.2 ⟨c, hc, hp, rfl, inEffective d hd⟩))
  refine Guard.tidy_reindex t ((Guard.onArm_store _ _ _).trans same.2) (t.allInStore hin) (fun d _ hn => ?_)
    ⟨fun d ⟨ha, hb⟩ => t.fit.1 d ⟨joined _ d ha, joined _ d hb⟩, ?_⟩
  · rw [← Guard.derive_release t hc hp same hn]
    refine Guard.derive_congr (by simp [Guard.onVacate]) (fun x => by rw [Guard.onVacate_heldBy]) (fun x => ?_)
      (by simp [Guard.onVacate]) (by simp [Guard.onVacate]) (fun _ => by simp [Guard.onVacate, Guard.isRetired])
      (by simp [Guard.onVacate, Guard.reservedFor])
    rw [vacate]
    simp [hn]
  · have grid : ∀ cells, (h.onVacate c.arm fun v => unionCells v (g.ownCellsOf c)).allInGrid cells ↔
        h.allInGrid cells := fun cells => by simp [Guard.allInGrid, Guard.onVacate]
    have inside : ∀ x, h.allInGrid (h.arm x).vacate →
        h.allInGrid ((h.onVacate c.arm fun v => unionCells v (g.ownCellsOf c)).arm x).vacate := fun x hx d hd => by
      rcases (vacate x d).1 hd with hd | ⟨-, hd⟩
      · exact hx d hd
      · exact hin' d hd
    refine ⟨⟨by simpa [Guard.onVacate] using nc, by simpa [Guard.onVacate] using nr, by simpa [Guard.onVacate] using poisoned,
      ?_, ?_, ?_, ?_⟩, ?_, ?_⟩
    · rw [grid]
      simpa [Guard.onVacate] using fences
    · exact (grid _).2 (inside .A va)
    · exact (grid _).2 (inside .B vb)
    · intro d hd
      rw [grid, grid]
      exact claims d (by simpa [Guard.onVacate] using hd)
    · simpa [Guard.heldReserveNothing, Guard.onVacate] using nothing
    · simpa [Guard.keysDiffer, Guard.keys, Guard.onVacate] using differ

end

/-- Some of an arm's vacating cells are let go. -/
theorem Guard.dropVacate_eases {g : Guard} (t : g.tidy) (x : Arm) {cells : CellSet}
    (hin : ∀ c ∈ cells, c ∈ (g.arm x).vacate) : g.Eases ((g.onVacate x fun v => minusCells v cells).reindex cells) := by
  have vacate : ∀ y d, d ∈ ((g.onVacate x fun v => minusCells v cells).arm y).vacate ↔
      d ∈ (g.arm y).vacate ∧ (y = x → d ∉ cells) := fun y d => by
    rw [Guard.onVacate_vacate]
    split
    · rename_i e
      simp [mem_minusCells, e]
    · rename_i e
      simp [Ne.symm e]
  refine Guard.eases_reindex t (Guard.onArm_store _ _ _) ⟨Guard.onArm_cfg _ _ _, Guard.onArm_fences _ _ _, ?_, ?_, ?_⟩
    ?_ (t.allInStore fun c hc => t.vacate x c (hin c hc)) fun d _ hn => ?_
  · simp [Guard.keys, Guard.onVacate]
  · exact fun d hd => ⟨d, by simpa [Guard.onVacate] using hd, .refl _ _⟩
  · exact fun y d hd => ((vacate y d).1 hd).1
  · simpa [Guard.onVacate] using t.poisoned
  · refine Guard.derive_congr (by simp [Guard.onVacate]) (fun x => by rw [Guard.onVacate_heldBy]) (fun y => ?_)
      (by simp [Guard.onVacate]) (by simp [Guard.onVacate]) (fun _ => by simp [Guard.onVacate, Guard.isRetired])
      (by simp [Guard.onVacate, Guard.reservedFor])
    rw [vacate]
    simp [hn]

/-! ## A section retired, fences, and a claim added -/

/-- The records of a retirement, the entries not yet written. -/
def Guard.retireRecords (g : Guard) (s : Nat) : Guard :=
  let g := g.onSection s fun t => { t with retired := true, errors := 0 }
  { g with claims := g.claims.map fun c => { c with reserved := c.reserved.filter fun d => d.sec ≠ s } }

theorem Guard.retireSection_eq (g : Guard) (s : Nat) :
    g.retireSection s = (g.retireRecords s).reindex (g.sectionCells s) := rfl

theorem Guard.retireRecords_isRetired (g : Guard) {s t : Nat} (hs : s < 4) (ht : t < 4) (hne : t ≠ s) :
    (g.retireRecords s).isRetired t = g.isRetired t := by
  change ((g.sections.upd s fun t => { t with retired := true, errors := 0 }).get t).retired = _
  rw [Four.get_upd, if_neg (by omega)]
  rfl

theorem Guard.retireRecords_shrinks (g : Guard) (s : Nat) : g.Shrinks (g.retireRecords s) where
  cfg := rfl
  fences := rfl
  keys := by
    have : (g.retireRecords s).keys = g.keys := List.map_map
    rw [this]
  claims d hd := by
    obtain ⟨e, he, rfl⟩ := List.mem_map.1 hd
    exact ⟨e, he, rfl, rfl, rfl, fun b hb => (List.mem_filter.1 hb).1, fun b hb => .inl hb⟩
  vacate _ _ hb := hb

theorem Guard.mem_sectionCells {g : Guard} {s : Nat} {c : Cell} :
    c ∈ g.sectionCells s ↔ g.cfg.inGrid c = true ∧ c.sec = s := by
  rw [Guard.sectionCells, List.mem_filter, ConfigSet.mem_gridCells, ConfigSet.inGrid_iff, decide_eq_true_eq]

theorem Cell.sec_lt {c : Cell} (h : c.inStore) : c.sec < 4 := by
  have := h.1
  unfold Cell.sec
  omega

theorem Guard.retireSection_eases {g : Guard} (t : g.tidy) {s : Nat} (hs : s < 4) : g.Eases (g.retireSection s) := by
  rw [Guard.retireSection_eq]
  refine Guard.eases_reindex t rfl (g.retireRecords_shrinks s) t.poisoned
    (t.allInStore (g.sectionCells_allInGrid s)) fun d hd hn => ?_
  have outside : g.cfg.inGrid d = true → d.sec ≠ s := fun hin e => hn (Guard.mem_sectionCells.2 ⟨hin, e⟩)
  refine Guard.derive_congr rfl (fun x => ?_) (fun _ => Iff.rfl) Iff.rfl Iff.rfl
    (fun hin => g.retireRecords_isRetired hs (Cell.sec_lt hd) (outside hin)) ?_
  · exact Guard.heldBy_mapClaims (g := g) fun _ _ => Iff.rfl
  · refine Guard.reservedFor_mapClaims (g := g) fun k hk => ⟨?_, rfl⟩
    simp only [List.mem_filter, decide_eq_true_eq, and_iff_left_iff_imp]
    exact fun hr => outside (t.reserved hk d hr)

/-- Cells of the grid that join the fence layer (R15). -/
theorem Guard.fenceCells_tidy {g : Guard} (t : g.tidy) {cells : CellSet} (hin : g.allInGrid cells) :
    (g.fenceCells cells).tidy := by
  obtain ⟨apart, ⟨nc, nr, poisoned, fences, va, vb, claims⟩, nothing, differ⟩ := t.fit
  let h : Guard := { g with
    fences := unionCells g.fences cells
    claims := g.claims.map fun c => { c with reserved := minusCells c.reserved cells } }
  have held : ∀ x d, h.heldBy x d = g.heldBy x d := fun x d =>
    Guard.heldBy_mapClaims (g := g) (f := fun c => { c with reserved := minusCells c.reserved cells }) fun _ _ => Iff.rfl
  change (h.reindex cells).tidy
  refine Guard.tidy_reindex t rfl (t.allInStore hin) (fun d _ hn => ?_)
    ⟨fun d ⟨ha, hb⟩ => ?_, ⟨nc, nr, poisoned, fun d hd => ?_, va, vb, fun d hd => ?_⟩, fun d hd hp => ?_, ?_⟩
  · refine Guard.derive_congr rfl (fun x => held x d) (fun _ => Iff.rfl) ?_ Iff.rfl (fun _ => rfl) ?_
    · change d ∈ unionCells g.fences cells ↔ _
      rw [mem_unionCells]
      simp [hn]
    · refine Guard.reservedFor_mapClaims (g := g) fun k _ => ⟨?_, rfl⟩
      rw [mem_minusCells]
      simp [hn]
  · rw [Guard.ownedBy, held] at ha hb
    exact apart d ⟨ha, hb⟩
  · rcases mem_unionCells.1 hd with hd | hd
    · exact fences d hd
    · exact hin d hd
  · obtain ⟨e, he, rfl⟩ := List.mem_map.1 hd
    exact ⟨(claims e he).1, fun b hb => (claims e he).2 b (mem_minusCells.1 hb).1⟩
  · obtain ⟨e, he, rfl⟩ := List.mem_map.1 hd
    rw [nothing e he hp]
    rfl
  · have : h.keys = g.keys := List.map_map
    rw [Guard.keysDiffer, this]
    exact differ

/-- Cells that leave the fence layer (R16). -/
theorem Guard.unfenceCells_tidy {g : Guard} (t : g.tidy) {cells : CellSet} (hin : g.allInGrid cells) :
    (g.unfenceCells cells).tidy := by
  obtain ⟨apart, ⟨nc, nr, poisoned, fences, va, vb, claims⟩, nothing, differ⟩ := t.fit
  refine Guard.tidy_reindex (h := { g with fences := minusCells g.fences cells }) t rfl (t.allInStore hin)
    (fun d _ hn => ?_)
    ⟨apart, ⟨nc, nr, poisoned, fun d hd => fences d (mem_minusCells.1 hd).1, va, vb, claims⟩, nothing, differ⟩
  refine Guard.derive_congr rfl (fun _ => rfl) (fun _ => Iff.rfl) ?_ Iff.rfl (fun _ => rfl) rfl
  change d ∈ minusCells g.fences cells ↔ _
  rw [mem_minusCells]
  simp [hn]

/-- A waiting claim of a new name enters the table with nothing reserved (R64). -/
theorem Guard.addClaim_tidy {g : Guard} (t : g.tidy) {c : Claim} (hw : c.phase = .waiting) (hr : c.reserved = [])
    (he : g.allInGrid c.effective) (hk : c.key ∉ g.keys) : (g.addClaim c).tidy := by
  have numbered : g.SameTray (g.onArm c.arm fun a => { a with nextNumber := c.number + 1 }) := .onArm g c.arm rfl
  have t' := numbered.tidy t
  have hclaims : (g.onArm c.arm fun a => { a with nextNumber := c.number + 1 }).claims = g.claims := g.onArm_claims _ _
  have hcfg : (g.onArm c.arm fun a => { a with nextNumber := c.number + 1 }).cfg = g.cfg := g.onArm_cfg _ _
  rw [Guard.addClaim, ← hclaims]
  rw [Guard.keys, ← hclaims] at hk
  rw [Guard.allInGrid, ← hcfg] at he
  generalize g.onArm c.arm (fun a => { a with nextNumber := c.number + 1 }) = k at t' hk he
  obtain ⟨apart, ⟨nc, nr, poisoned, fences, va, vb, claims⟩, nothing, differ⟩ := t'.fit
  let h : Guard := { k with claims := k.claims ++ [c] }
  have held : ∀ x d, h.heldBy x d = k.heldBy x d := fun x d => by
    change (k.claims ++ [c]).any _ = k.claims.any _
    simp [Claim.isHeld, hw]
  refine Guard.tidy_reindex (h := h) (cells := []) t' rfl (by simp [allInStore]) (fun d _ _ => ?_)
    ⟨fun d ⟨ha, hb⟩ => ?_, ⟨nc, nr, poisoned, fences, va, vb, fun d hd => ?_⟩, fun d hd hp => ?_, ?_⟩
  · refine Guard.derive_congr rfl (fun x => held x d) (fun _ => Iff.rfl) Iff.rfl Iff.rfl (fun _ => rfl) ?_
    change ((k.claims ++ [c]).find? _).map _ = (k.claims.find? _).map _
    rw [List.find?_append]
    simp [hr]
  · rw [Guard.ownedBy, held] at ha hb
    exact apart d ⟨ha, hb⟩
  · rcases List.mem_append.1 hd with hd | hd
    · exact claims d hd
    · obtain rfl := List.mem_singleton.1 hd
      exact ⟨he, by simp [Guard.allInGrid, hr]⟩
  · rcases List.mem_append.1 hd with hd | hd
    · exact nothing d hd hp
    · obtain rfl := List.mem_singleton.1 hd
      exact hr
  · change ((k.claims ++ [c]).map Claim.key).Nodup
    rw [List.map_append, List.nodup_append]
    refine ⟨differ, by simp, fun a ha b hb e => ?_⟩
    obtain rfl := List.mem_singleton.1 hb
    exact hk (e ▸ ha)

end Sys2Proof.Machine


/-! # The shared operations keep the tray in order

One lemma per shared operation: `_same` when it touches neither records nor store, `_eases` when nothing is owned or reserved
anew, `_tidy` otherwise. -/

namespace Sys2Proof.Machine

/-! ## Operations that the map does not show -/

theorem Guard.SameTray.onSection (g : Guard) (s : Nat) {f : SectionState → SectionState}
    (h : ∀ t, (f t).retired = t.retired) : g.SameTray (g.onSection s f) := ⟨g.onSection_records s h, rfl⟩

theorem Guard.SameTray.onUnit (g : Guard) (x : Arm) (f : ActionUnit → ActionUnit) : g.SameTray (g.onUnit x f) :=
  ⟨g.onUnit_records x f, g.onUnit_store x f⟩

theorem Guard.SameTray.signal (g : Guard) (x : Arm) (e : CountEvent) (n : Nat) : g.SameTray (g.signal x e n) :=
  ⟨g.signal_records x e n, g.signal_store x e n⟩

theorem Guard.SameTray.drawFinding (g : Guard) : g.SameTray g.drawFinding.2 :=
  ⟨g.drawFinding_records, g.drawFinding_store⟩

theorem Guard.SameTray.changeLevel (g : Guard) (x : Arm) (l : Level) : g.SameTray (g.changeLevel x l) :=
  ⟨g.changeLevel_records x l, by simp [Guard.changeLevel]⟩

theorem Event.signal_same (ev : Event) (x : Arm) (e : CountEvent) (n : Nat) :
    ev.guard.SameTray (ev.signal x e n).guard := .signal _ x e n

theorem Event.tally_same (ev : Event) (x : Arm) (i : SlotIx) (o : EntryOutcome) :
    ev.guard.SameTray (ev.tally x i o).guard :=
  .trans (h := ev.guard.onArm x fun a => a.onPlan i (Plan.tally o)) (.onArm _ x (ArmState.setSlot_vacate _ _ _))
    (.signal _ x _ 1)

theorem Event.settleEntry_same (ev : Event) (c : Claim) (o : EntryOutcome) :
    ev.guard.SameTray (ev.settleEntry c o).guard := by
  unfold Event.settleEntry
  split
  · exact .refl _
  · exact ev.tally_same _ _ _

theorem Event.rise_same (ev : Event) (s n : Nat) : ev.guard.SameTray (ev.rise s n).guard := by
  unfold Event.rise
  split
  · dsimp only
    split <;> exact .onSection _ s fun _ => rfl
  · exact .refl _

theorem Event.raise_same (ev : Event) (x : Arm) (src : Source) : ev.guard.SameTray (ev.raise x src).guard := by
  unfold Event.raise
  split
  · exact .refl _
  · exact ⟨Guard.onUnit_records _ x _, by simp⟩

theorem Event.endPlan_same (ev : Event) (x : Arm) (i : SlotIx) : ev.guard.SameTray (ev.endPlan x i).guard := by
  unfold Event.endPlan
  split
  · split
    · exact .refl _
    · exact ⟨Guard.onArm_records _ x (ArmState.setSlot_vacate _ _ _), by simp⟩
  · exact .refl _

/-- A fold of operations that the map does not show. -/
theorem Event.foldl_same {α : Type} {f : Event → α → Event}
    (h : ∀ (ev : Event) (a : α), ev.guard.SameTray (f ev a).guard) (as : List α) (ev : Event) :
    ev.guard.SameTray (as.foldl f ev).guard := by
  induction as generalizing ev with
  | nil => exact .refl _
  | cons a as ih => exact .trans (h ev a) (ih _)

theorem Event.endPlans_same (ev : Event) : ev.guard.SameTray ev.endPlans.guard := by
  unfold Event.endPlans
  exact Event.foldl_same (f := fun ev (j : Arm × SlotIx) => ev.endPlan j.1 j.2) (fun ev j => ev.endPlan_same j.1 j.2) _
    { ev with judged := [] }

theorem Event.endDraining_same (ev : Event) : ev.guard.SameTray ev.endDraining.guard := by
  unfold Event.endDraining
  split <;> exact ⟨rfl, rfl⟩

/-! ## Names of waiting and of held claims -/

/-- Whatever claim has this name waits. -/
def Guard.waits (g : Guard) (k : ClaimKey) : Prop := ∀ c ∈ g.claims, c.key = k → c.phase = .waiting

/-- Whatever claim has this name is held. -/
def Guard.holds (g : Guard) (k : ClaimKey) : Prop := ∀ c ∈ g.claims, c.key = k → c.phase = .held

theorem Guard.Shrinks.waits {g h : Guard} (s : g.Shrinks h) {k : ClaimKey} (w : g.waits k) : h.waits k := by
  intro d hd e
  obtain ⟨c, hc, hs⟩ := s.claims d hd
  rw [hs.phase]
  exact w c hc (hs.key ▸ e)

theorem Guard.Shrinks.holds {g h : Guard} (s : g.Shrinks h) {k : ClaimKey} (w : g.holds k) : h.holds k := by
  intro d hd e
  obtain ⟨c, hc, hs⟩ := s.claims d hd
  rw [hs.phase]
  exact w c hc (hs.key ▸ e)

/-- No shared operation lets go of a claim's being held. -/
theorem Guard.Change.holds {g h : Guard} (c : Guard.Change g h) {k : ClaimKey} (w : g.holds k) : h.holds k := by
  intro d hd e
  obtain ⟨b, hb, hk, -, -, -, -, -, hp⟩ := c.claim d hd
  exact hp (w b hb (hk ▸ e))

theorem Guard.tidy.waits {g : Guard} (t : g.tidy) {c : Claim} (hc : c ∈ g.claims) (hw : c.phase = .waiting) :
    g.waits c.key := fun d hd e => by rwa [t.keysDiffer.eq hd hc e]

theorem Guard.tidy.holds {g : Guard} (t : g.tidy) {c : Claim} (hc : c ∈ g.claims) (hp : c.phase = .held) :
    g.holds c.key := fun d hd e => by rwa [t.keysDiffer.eq hd hc e]

theorem Guard.tidy.waits_keysWhere {g : Guard} (t : g.tidy) {p : Claim → Bool}
    (hp : ∀ c, p c = true → c.phase = .waiting) {k : ClaimKey} (hk : k ∈ g.keysWhere p) : g.waits k := by
  obtain ⟨c, hc, hpc, rfl⟩ := Guard.mem_keysWhere.1 hk
  exact t.waits hc (hp c hpc)

/-- A fold of operations that each ease, given of each argument something that easing keeps. -/
theorem Event.foldl_eases {α : Type} {f : Event → α → Event} {Q : Guard → α → Prop}
    (keep : ∀ {g h : Guard} {a : α}, g.Shrinks h → Q g a → Q h a)
    (h : ∀ (ev : Event) (a : α), ev.guard.tidy → Q ev.guard a → ev.guard.Eases (f ev a).guard) (as : List α) (ev : Event)
    (t : ev.guard.tidy) (q : ∀ a ∈ as, Q ev.guard a) : ev.guard.Eases (as.foldl f ev).guard := by
  induction as generalizing ev with
  | nil => exact .refl t
  | cons a as ih =>
    have first := h ev a t (q a List.mem_cons_self)
    exact first.trans (ih _ first.tidy fun b hb => keep first.shrinks (q b (List.mem_cons_of_mem _ hb)))

/-! ## Claims that leave while waiting -/

theorem Event.leaveWaiting_eases {ev : Event} (t : ev.guard.tidy) {c : Claim} (hc : c ∈ ev.guard.claims)
    (hw : c.phase = .waiting) (n : ArmNotice) : ev.guard.Eases (ev.leaveWaiting c n).guard :=
  (Guard.leave_eases t hc hw).then_same (Event.settleEntry_same
    ((ev.onGuard fun g => ((g.removeClaim c.key).succeed c).reindex c.reserved).post (.toArm c.arm n)) c .missed)

theorem Event.withdraw_eases {ev : Event} (t : ev.guard.tidy) {c : Claim} (hc : c ∈ ev.guard.claims)
    (hw : c.phase = .waiting) : ev.guard.Eases (ev.withdraw c).guard := Event.leaveWaiting_eases t hc hw _

theorem Event.bounce_eases {ev : Event} {g : Guard} (e : ev.guard = g) (t : g.tidy) {c : Claim} (hc : c ∈ g.claims)
    (hw : c.phase = .waiting) (why : BounceReason) : g.Eases (ev.bounce c why).guard := by
  subst e
  exact Event.leaveWaiting_eases t hc hw _

theorem Event.withdrawAll_eases {ev : Event} (t : ev.guard.tidy) (p : Claim → Bool) :
    ev.guard.Eases (ev.withdrawAll p).guard := by
  refine Event.foldl_eases (Q := Guard.waits) (fun s => s.waits) (fun ev k t w => ?_) _ ev t fun k hk =>
    t.waits_keysWhere (fun c h => Claim.isWaiting_iff.1 (Bool.and_eq_true_iff.1 h).1) hk
  split
  · rename_i c h
    obtain ⟨hc, e⟩ := Guard.claim?_some h
    exact Event.withdraw_eases t hc (w c hc e)
  · exact .refl t

/-! ## Reads -/

theorem Event.reindexCell_eases {g : Guard} (t : g.tidy) {c : Cell} (hc : c.inStore) : g.Eases (g.reindexCell c) :=
  Guard.reindex_eases (cells := [c]) t (by simpa [allInStore] using hc)

theorem Event.poison_eases {ev : Event} (t : ev.guard.tidy) {c : Cell} (hc : c.inStore) :
    ev.guard.Eases (ev.poison c).guard := Guard.poisonCell_eases t hc

theorem Event.uncorrectable_eases {ev : Event} (t : ev.guard.tidy) {c : Cell} (hc : c.inStore) :
    ev.guard.Eases (ev.uncorrectable c).guard :=
  ((Event.reindexCell_eases t hc).then_same (Event.rise_same (ev.onGuard fun g => g.reindexCell c) c.sec 4)).then_same
    (.onSection _ c.sec fun _ => rfl)

theorem Event.readRaw_eases {ev : Event} (t : ev.guard.tidy) (who : Reader) {c : Cell} (hc : c.inStore) :
    ev.guard.Eases (ev.readRaw who c).1.guard := by
  unfold Event.readRaw
  split
  · exact .refl t
  · dsimp only
    have drawn := (Guard.SameTray.drawFinding ev.guard).eases t
    refine drawn.trans ?_
    split
    · exact .refl drawn.tidy
    · exact ((Event.rise_same { ev with guard := ev.guard.drawFinding.2 } c.sec 1).eases drawn.tidy).then_same
        (.onSection _ c.sec fun _ => rfl)
    · rw [Event.postRead_guard]
      exact Event.uncorrectable_eases (ev := { ev with guard := ev.guard.drawFinding.2 }) drawn.tidy hc
    · rw [Event.postRead_guard]
      have rebuilt := Event.uncorrectable_eases (ev := { ev with guard := ev.guard.drawFinding.2 }) drawn.tidy hc
      generalize ({ ev with guard := ev.guard.drawFinding.2 } : Event).uncorrectable c = ev' at rebuilt ⊢
      refine rebuilt.trans ?_
      have poisoned := Event.poison_eases (ev := ev'.postRead (.mapError c who false (ev'.guard.errorsOf c))) (c := c)
      rw [Event.postRead_guard] at poisoned
      exact poisoned rebuilt.tidy hc

theorem Event.formRaw_eases {cells : CellSet} {ev : Event} (t : ev.guard.tidy) (hc : allInStore cells) :
    ev.guard.Eases (ev.formRaw cells).1.guard := by
  induction cells generalizing ev with
  | nil => exact .refl t
  | cons c cs ih =>
    have first := Event.readRaw_eases t .arbiter (hc c List.mem_cons_self)
    exact first.trans (ih first.tidy fun d hd => hc d (List.mem_cons_of_mem _ hd))

/-- What is kept of an effective set formed anew is of its cells. -/
theorem Event.formRaw_kept {cells : CellSet} {ev : Event} {d : Cell} (h : d ∈ (ev.formRaw cells).2) : d ∈ cells := by
  induction cells generalizing ev with
  | nil => exact h
  | cons c cs ih =>
    unfold Event.formRaw at h
    dsimp only at h
    split at h
    · exact List.mem_cons_of_mem _ (ih h)
    · rcases List.mem_cons.1 h with rfl | h
      · exact List.mem_cons_self
      · exact List.mem_cons_of_mem _ (ih h)

theorem Event.reform_eases {ev : Event} (t : ev.guard.tidy) {k : ClaimKey} (w : ev.guard.waits k) :
    ev.guard.Eases (ev.reform k).guard := by
  unfold Event.reform
  split
  · exact .refl t
  · rename_i c hk
    obtain ⟨hc, rfl⟩ := Guard.claim?_some hk
    dsimp only
    have formed := Event.formRaw_eases t (t.allInStore (c.shape.cells_allInGrid ev.guard))
    have refitted : ev.guard.Eases ((ev.formRaw (c.shape.cells ev.guard.cfg)).1.guard.refit c.key c.reserved
        (ev.formRaw (c.shape.cells ev.guard.cfg)).2 (c.shape.cells ev.guard.cfg).length) := by
      refine formed.trans (Guard.refit_eases formed.tidy (fun d hd e => ?_) (t.allInStore (t.reserved hc)))
      obtain ⟨b, hb, hs⟩ := formed.shrinks.claims d hd
      obtain rfl := t.keysDiffer.eq hb hc (hs.key ▸ e)
      refine ⟨hs.phase ▸ w b hc rfl, hs.reserved, fun b hb => ?_⟩
      rw [hs.shape, formed.shrinks.cfg]
      exact Event.formRaw_kept hb
    split
    · rename_i d hd
      split
      · obtain ⟨hd, e⟩ := Guard.claim?_some hd
        refine refitted.trans (Event.bounce_eases ?_ refitted.tidy hd (refitted.shrinks.waits w d hd e) .empty)
        rfl
      · exact refitted
    · exact refitted

theorem Event.settleRounds_eases (n : Nat) {ev : Event} (t : ev.guard.tidy) :
    ev.guard.Eases (ev.settleRounds n).guard := by
  induction n generalizing ev with
  | zero => exact .refl t
  | succ n ih =>
    unfold Event.settleRounds
    split
    · exact .refl t
    · have round := Event.foldl_eases (Q := Guard.waits) (f := Event.reform) (fun s => s.waits)
        (fun ev k t w => Event.reform_eases t w)
        (ev.guard.keysWhere fun c => c.isWaiting && meets (c.shape.cells ev.guard.cfg) ev.touched) { ev with touched := [] } t
        fun k hk => t.waits_keysWhere (fun c h => Claim.isWaiting_iff.1 (Bool.and_eq_true_iff.1 h).1) hk
      exact round.trans (ih round.tidy)

theorem Event.settle_eases {ev : Event} (t : ev.guard.tidy) : ev.guard.Eases ev.settle.guard :=
  Event.settleRounds_eases 769 t

theorem Event.readCell_eases {ev : Event} (t : ev.guard.tidy) (who : Reader) {c : Cell} (hc : c.inStore) :
    ev.guard.Eases (ev.readCell who c).1.guard := by
  have raw := Event.readRaw_eases t who hc
  exact raw.trans (Event.settle_eases raw.tidy)

theorem Event.readCells_eases {cells : CellSet} {ev : Event} (t : ev.guard.tidy) (who : Reader) (hc : allInStore cells) :
    ev.guard.Eases (ev.readCells who cells).1.guard := by
  induction cells generalizing ev with
  | nil => exact .refl t
  | cons c cs ih =>
    have first := Event.readCell_eases t who (hc c List.mem_cons_self)
    exact first.trans (ih first.tidy fun d hd => hc d (List.mem_cons_of_mem _ hd))

theorem Event.rewriteAll_eases {cells : CellSet} {ev : Event} (t : ev.guard.tidy) (cause : PoisonCause)
    (hc : allInStore cells) : ev.guard.Eases (ev.rewriteAll cause cells).guard := by
  refine Event.foldl_eases (Q := fun _ (c : Cell) => c.inStore) (fun _ h => h) (fun ev c t hc => ?_) cells ev t hc
  dsimp only
  have rewritten : ev.guard.Eases (ev.rewrite c).1.guard :=
    (Event.reindexCell_eases t hc).then_same (.drawFinding _)
  split
  · exact rewritten
  · have poisoned := rewritten.trans (Event.poison_eases rewritten.tidy hc)
    exact poisoned.trans (Event.settle_eases poisoned.tidy)

/-! ## The evaluation -/

theorem Guard.derive_owner {g : Guard} {c : Cell} (h : g.cfg.inGrid c = true) : (g.derive c).owner = g.ownerOf c := by
  unfold Guard.derive
  rw [if_pos h]

/-- A cell that stands in no candidate's way is not the other arm's (R73). -/
theorem Guard.tidy.not_owned {g : Guard} (t : g.tidy) {c : Cell} (h : g.cfg.inGrid c = true) {x : Arm}
    (a : (g.entryOf c).availableTo x = true) : g.ownedBy x.other c = false := by
  rw [t.agrees c (t.inStore h)] at a
  have owner : g.ownerOf c = none ∨ g.ownerOf c = some x := by
    have := (Bool.and_eq_true_iff.1 a).1
    simp only [Entry.isFree, Guard.derive_owner h, Bool.or_eq_true, Bool.and_eq_true, Option.isNone_iff_eq_none,
      decide_eq_true_eq] at this
    tauto
  rw [Bool.eq_false_iff]
  intro ho
  unfold Guard.ownerOf at owner
  cases x
  · have hA := Guard.apart_iff.1 t.fit.1 .B c ho
    rw [show g.ownedBy .A c = false from hA, show g.ownedBy .B c = true from ho] at owner
    simp at owner
  · rw [show g.ownedBy .A c = true from ho] at owner
    simp at owner

/-- What a read delivers is the entry of the cell at the read. -/
theorem Event.readRaw_entry (ev : Event) (who : Reader) (c : Cell) :
    (ev.readRaw who c).2 = (ev.readRaw who c).1.guard.entryOf c := by
  unfold Event.readRaw
  split <;> rfl

theorem Event.testCells_eases {cells : CellSet} {ev : Event} (t : ev.guard.tidy) (x : Arm) (ok : Bool)
    (hc : allInStore cells) : ev.guard.Eases (ev.testCells x ok cells).1.guard := by
  induction cells generalizing ev ok with
  | nil => exact .refl t
  | cons c cs ih =>
    have first := Event.readCell_eases t .arbiter (hc c List.mem_cons_self)
    unfold Event.testCells
    dsimp only
    split
    · exact first
    · exact first.trans (ih first.tidy _ fun d hd => hc d (List.mem_cons_of_mem _ hd))

/-- After a test that finds every cell available, the other arm owns none of them: what a later read brings about takes
cells from arms and gives none. -/
theorem Event.testCells_free {cells : CellSet} {ev : Event} (t : ev.guard.tidy) {x : Arm} {ok : Bool}
    (hc : ev.guard.allInGrid cells) (h : (ev.testCells x ok cells).2 = some true) :
    ok = true ∧ ∀ d ∈ cells, (ev.testCells x ok cells).1.guard.ownedBy x.other d = false := by
  induction cells generalizing ev ok with
  | nil => exact ⟨by simpa [Event.testCells] using h, by simp⟩
  | cons c cs ih =>
    have hin := hc c List.mem_cons_self
    have raw := Event.readRaw_eases t .arbiter (t.inStore hin)
    have first := Event.readCell_eases t .arbiter (t.inStore hin)
    unfold Event.testCells at h ⊢
    dsimp only at h ⊢
    split at h
    · cases h
    · rename_i hf
      rw [if_neg hf]
      have hcs : (ev.readCell .arbiter c).1.guard.allInGrid cs := fun d hd => by
        rw [first.shrinks.cfg]
        exact hc d (List.mem_cons_of_mem _ hd)
      obtain ⟨hok, free⟩ := ih first.tidy hcs h
      obtain ⟨hok, hav⟩ := Bool.and_eq_true_iff.1 hok
      refine ⟨hok, fun d hd => ?_⟩
      rcases List.mem_cons.1 hd with rfl | hd
      · have hav : ((ev.readRaw .arbiter d).2).availableTo x = true := hav
        rw [Event.readRaw_entry] at hav
        have hr : (ev.readRaw .arbiter d).1.guard.ownedBy x.other d = false :=
          raw.tidy.not_owned (by rwa [raw.shrinks.cfg]) hav
        have settled := Event.settle_eases raw.tidy
        have rest := Event.testCells_eases first.tidy x (ok && ((ev.readCell .arbiter d).2).availableTo x)
          (first.tidy.allInStore hcs)
        exact rest.shrinks.not_ownedBy (settled.shrinks.not_ownedBy hr)
      · exact free d hd

theorem Event.testClaim_eases (n : Nat) {ev : Event} (t : ev.guard.tidy) (k : ClaimKey) :
    ev.guard.Eases (ev.testClaim n k).1.guard := by
  induction n generalizing ev with
  | zero => exact .refl t
  | succ n ih =>
    unfold Event.testClaim
    split
    · exact .refl t
    · rename_i c hk
      have tested := Event.testCells_eases t c.arm true (t.allInStore (t.effective (Guard.claim?_some hk).1))
      split
      · rename_i e
        rw [e] at tested
        split
        · exact tested
        · exact tested.trans (ih tested.tidy)
      · rename_i e
        rw [e] at tested
        exact tested.trans (ih tested.tidy)

/-- A candidate found grantable is one whose cells the other arm owns none of (R73). -/
theorem Event.testClaim_free (n : Nat) {ev : Event} (t : ev.guard.tidy) {k : ClaimKey}
    (h : (ev.testClaim n k).2 = true) {c : Claim} (hc : (ev.testClaim n k).1.guard.claim? k = some c) :
    ∀ d ∈ c.effective, (ev.testClaim n k).1.guard.ownedBy c.arm.other d = false := by
  induction n generalizing ev with
  | zero => cases h
  | succ n ih =>
    unfold Event.testClaim at h hc ⊢
    split at h
    · cases h
    · rename_i b hk
      simp only [hk] at hc ⊢
      obtain ⟨hb, ekey⟩ := Guard.claim?_some hk
      have tested := Event.testCells_eases t b.arm true (t.allInStore (t.effective hb))
      split at h
      · rename_i ev' ok e
        rw [e] at tested
        simp only [e] at hc ⊢
        split at h
        · rename_i he
          rw [if_pos he] at hc ⊢
          have free := (Event.testCells_free t (t.effective hb) (by rw [e]; exact congrArg some h)).2
          rw [e] at free
          rw [hc] at he
          have he : c.effective = b.effective := by simpa using he
          have ha : c.arm = b.arm := congrArg ClaimKey.arm ((Guard.claim?_some hc).2.trans ekey.symm)
          rw [he, ha]
          exact free
        · rename_i he
          rw [if_neg he] at hc ⊢
          exact ih tested.tidy h hc
      · rename_i ev' e
        rw [e] at tested
        simp only [e] at hc ⊢
        exact ih tested.tidy h hc

theorem Event.grant_tidy {ev : Event} (t : ev.guard.tidy) {c : Claim} (hc : c ∈ ev.guard.claims)
    (free : ∀ d ∈ c.effective, ev.guard.ownedBy c.arm.other d = false) : (ev.grant c).guard.tidy :=
  (Guard.SameTray.trans (Event.signal_same (ev.onGuard fun g => g.grant c) c.arm .grants 1)
    (Event.signal_same _ c.arm .cellsExcluded c.excluded)).tidy (Guard.grant_tidy t hc free)

theorem Event.takeCandidate_tidy {ev : Event} (t : ev.guard.tidy) {k : ClaimKey} (w : ev.guard.waits k) :
    (ev.takeCandidate k).guard.tidy := by
  unfold Event.takeCandidate
  dsimp only
  have tested := Event.testClaim_eases 769 t k
  split
  · exact tested.tidy
  · rename_i c hk
    obtain ⟨hc, e⟩ := Guard.claim?_some hk
    split
    · rename_i h
      exact Event.grant_tidy tested.tidy hc (Event.testClaim_free 769 t h hk)
    · split
      · exact Guard.reserve_tidy tested.tidy hc (tested.shrinks.waits w c hc e)
      · exact tested.tidy

theorem Guard.candidateOf_some {g : Guard} {taken : List ClaimKey} {x : Arm} {c : Claim}
    (h : g.candidateOf taken x = some c) : c ∈ g.claims ∧ c.phase = .waiting ∧ c.arm = x := by
  have h := (Option.filter_eq_some_iff.1 h).1
  have hp := List.find?_some h
  simp only [Claim.isWaiting, Bool.and_eq_true, decide_eq_true_eq] at hp
  exact ⟨List.mem_of_find?_eq_some h, hp⟩

theorem Guard.nextCandidate_some {g : Guard} {taken : List ClaimKey} {c : Claim}
    (h : g.nextCandidate taken = some c) : c ∈ g.claims ∧ c.phase = .waiting := by
  have one : ∀ {x}, g.candidateOf taken x = some c → c ∈ g.claims ∧ c.phase = .waiting := fun h =>
    ⟨(Guard.candidateOf_some h).1, (Guard.candidateOf_some h).2.1⟩
  unfold Guard.nextCandidate at h
  split at h
  · split at h
    · cases h; exact one ‹_›
    · cases h; exact one ‹_›
  · cases h; exact one ‹_›
  · exact one h

theorem Event.evaluateRounds_tidy (n : Nat) {ev : Event} (t : ev.guard.tidy) (taken : List ClaimKey) :
    (ev.evaluateRounds n taken).guard.tidy := by
  induction n generalizing ev taken with
  | zero => exact t
  | succ n ih =>
    unfold Event.evaluateRounds
    split
    · exact t
    · rename_i c h
      obtain ⟨hc, hw⟩ := Guard.nextCandidate_some h
      exact ih (Event.takeCandidate_tidy (ev := { ev with reformed := [] }) t (t.waits hc hw)) _

theorem Event.runEvaluation_tidy {ev : Event} (t : ev.guard.tidy) : ev.runEvaluation.guard.tidy := by
  unfold Event.runEvaluation
  split
  · exact t
  · exact Event.evaluateRounds_tidy 4000 t []

theorem Event.evaluateIfCalled_tidy {ev : Event} (t : ev.guard.tidy) : ev.evaluateIfCalled.guard.tidy := by
  unfold Event.evaluateIfCalled
  split
  · exact Event.runEvaluation_tidy t
  · exact t

/-! ## The action unit -/

theorem Event.computeLevel_eases {ev : Event} (t : ev.guard.tidy) (x : Arm) :
    ev.guard.Eases (ev.computeLevel x).guard := by
  unfold Event.computeLevel
  dsimp only
  have changed := (Guard.SameTray.changeLevel ev.guard x (ev.guard.levelFor x)).eases t
  split
  · exact .refl t
  · split
    · exact changed.trans (Event.withdrawAll_eases (ev := ev.onGuard fun g => g.changeLevel x (ev.guard.levelFor x))
        changed.tidy _)
    · exact changed

theorem Event.settleLevel_eases {ev : Event} (t : ev.guard.tidy) (x : Arm) :
    ev.guard.Eases (ev.settleLevel x).guard := by
  unfold Event.settleLevel
  rw [Event.postFaults_guard]
  exact Event.computeLevel_eases t x

theorem Event.latchRevoked_eases {ev : Event} (t : ev.guard.tidy) (named : Arm → Bool) :
    ev.guard.Eases (ev.latchRevoked named).guard := by
  have latch : ∀ (e : Event) (x : Arm), e.guard.SameTray
      (if named x && (e.guard.arm x).calculator.zone = .inside then e.raise x .revoked else e).guard := by
    intro e x
    split
    · exact e.raise_same x .revoked
    · exact .refl _
  unfold Event.latchRevoked
  rw [Event.postFaults_guard]
  have latched := ((latch ev .A).trans (latch _ .B)).eases t
  have first := latched.trans (Event.computeLevel_eases latched.tidy .A)
  exact first.trans (Event.computeLevel_eases first.tidy .B)

/-! ## The handover -/

theorem Event.endHeld_tidy {ev : Event} (t : ev.guard.tidy) {k : ClaimKey} (w : ev.guard.holds k) (o : EntryOutcome) :
    (ev.endHeld k o).guard.tidy := by
  unfold Event.endHeld
  split
  · exact t
  · rename_i b hk
    dsimp only
    have own : ev.guard.allInGrid (ev.guard.ownCellsOf b) := fun d hd =>
      t.effective (Guard.claim?_some hk).1 d (Guard.mem_ownCellsOf.1 hd).1
    have read := Event.readCells_eases t .handover (t.allInStore own)
    generalize (ev.readCells .handover (ev.guard.ownCellsOf b)).1 = ev' at read
    split
    · exact read.tidy
    · rename_i c hk'
      obtain ⟨hc, rfl⟩ := Guard.claim?_some hk'
      have hp := read.shrinks.holds w c hc rfl
      have same := Event.settleEntry_same (ev'.onGuard fun g => g.removeClaim c.key) c o
      split
      · exact Guard.letGo_tidy read.tidy hc hp same
      · exact Guard.joinVacate_tidy read.tidy hc hp same

theorem Event.complete_tidy {ev : Event} (t : ev.guard.tidy) (x : Arm) : (ev.complete x).guard.tidy := by
  have fold : ∀ (ks : List ClaimKey) (ev : Event), ev.guard.tidy → (∀ k ∈ ks, ev.guard.holds k) →
      (ks.foldl (fun ev k => ev.endHeld k .picked) ev).guard.tidy := by
    intro ks
    induction ks with
    | nil => exact fun _ t _ => t
    | cons k ks ih =>
      intro ev t w
      exact ih _ (Event.endHeld_tidy t (w k List.mem_cons_self) .picked) fun j hj =>
        (ev.endHeld_change k .picked).holds (w j (List.mem_cons_of_mem _ hj))
  refine fold _ ev t fun k hk => ?_
  obtain ⟨c, hc, hp, rfl⟩ := Guard.mem_keysWhere.1 hk
  simp only [Claim.isHeld, Bool.and_eq_true, decide_eq_true_eq] at hp
  exact t.holds hc hp.1.2

theorem Event.vacateProgress_eases {ev : Event} (t : ev.guard.tidy) (x : Arm) :
    ev.guard.Eases (ev.vacateProgress x).guard := by
  unfold Event.vacateProgress
  dsimp only
  have read := Event.readCells_eases t .handover
    (cells := (ev.guard.arm x).vacate.filter fun c => !covered (ev.guard.arm x).calculator.footprint c)
    (t.allInStore fun c hc => t.vacate x c (List.mem_filter.1 hc).1)
  exact read.trans (Guard.dropVacate_eases read.tidy x fun c hc => (List.mem_filter.1 hc).1)

theorem Event.endClaims_tidy (ks : List ClaimKey) {ev : Event} (t : ev.guard.tidy) :
    (ev.endClaims ks).1.guard.tidy := by
  induction ks generalizing ev with
  | nil => exact t
  | cons k ks ih =>
    unfold Event.endClaims
    split
    · exact ih t
    · rename_i c hk
      have hc := (Guard.claim?_some hk).1
      split
      · rename_i hp
        exact ih (Event.endHeld_tidy (ev := ev.post _) t (t.holds hc (Claim.isHeld_iff.1 hp)) .missed)
      · rename_i hp
        refine ih (Event.withdraw_eases t hc (Claim.waiting_of_not_held fun h => hp ?_)).tidy
        exact Claim.isHeld_iff.2 h

/-! ## Retirement, flush, and the end of an event -/

theorem Guard.SameTray.restartScrub (g : Guard) : g.SameTray g.restartScrub := ⟨rfl, rfl⟩

theorem Guard.tidy.active_lt {g : Guard} (t : g.tidy) {s : Nat} (h : g.isActive s = true) : s < 4 := by
  have hc := (Bool.and_eq_true_iff.1 h).1
  have : 8 * s < g.cfg.nc := by simpa [ConfigSet.configured] using hc
  have := t.columns
  omega

theorem Event.retire_tidy {ev : Event} (t : ev.guard.tidy) {s : Nat} (hs : s < 4) : (ev.retire s).guard.tidy := by
  unfold Event.retire
  dsimp only
  have read := Event.readCells_eases t .scrub (t.allInStore (ev.guard.sectionCells_allInGrid s))
  have retired := (Guard.retireSection_eases read.tidy hs).tidy
  refine Event.runEvaluation_tidy ?_
  rw [Event.onGuard_guard, Event.post_guard]
  refine (Guard.SameTray.restartScrub _).tidy ?_
  refine (Event.settle_eases ?_).tidy
  dsimp only
  refine (Event.latchRevoked_eases ?_ _).tidy
  exact Event.endClaims_tidy _ retired

theorem Guard.SameTray.clearErrors (g : Guard) (s : Nat) : g.SameTray (g.onSection s fun t => { t with errors := 0 }) :=
  .onSection g s fun _ => rfl

theorem Event.flush_tidy {ev : Event} (t : ev.guard.tidy) (s : Nat) : (ev.flush s).guard.tidy := by
  unfold Event.flush
  dsimp only
  have ended := Event.endClaims_tidy (ev.guard.keysWhere fun _ => true) t
  have latched := (Event.latchRevoked_eases ended fun _ => true).tidy
  generalize ((ev.endClaims (ev.guard.keysWhere fun _ => true)).1.latchRevoked fun _ => true) = ev' at latched
  have part : ∀ p : Cell → Bool, allInStore ((ev'.guard.sectionCells s).filter p) := fun p c hc =>
    latched.allInStore (ev'.guard.sectionCells_allInGrid s) c (List.mem_filter.1 hc).1
  refine Event.runEvaluation_tidy ?_
  rw [Event.post_guard]
  refine (Guard.SameTray.clearErrors _ s).tidy ?_
  refine (Event.rewriteAll_eases ?_ .flush (part _)).tidy
  exact (Guard.reindex_eases latched (part _)).tidy

theorem Event.dealWithSections_tidy (n : Nat) {ev : Event} (t : ev.guard.tidy) :
    (ev.dealWithSections n).guard.tidy := by
  induction n generalizing ev with
  | zero => exact t
  | succ n ih =>
    unfold Event.dealWithSections
    split
    · exact t
    · refine ih ?_
      split
      · exact t
      · rename_i h
        split
        · exact Event.retire_tidy t (t.active_lt (by simpa using h))
        · exact Event.flush_tidy t _

theorem Event.finish_tidy {ev : Event} (t : ev.guard.tidy) : ev.finish.guard.tidy := by
  have evaluated := Event.evaluateIfCalled_tidy t
  have dealt := Event.dealWithSections_tidy 8 (ev := ev.evaluateIfCalled.afterReply) evaluated
  exact ((Event.endPlans_same _).trans (Event.endDraining_same _)).tidy dealt

end Sys2Proof.Machine


/-! # Every kind of event keeps the tray in order

The services of the requests, the expiries, the scrub and the supplies. CONFIGURE's new grid and RESTART write every entry of
the store, so there the map need not agree before. -/

namespace Sys2Proof.Machine

/-! ## The records emptied, every entry written -/

/-- Records without claims and vacating cells. -/
theorem Guard.recordsFit_of_nothing {g : Guard} (hc : g.claims = []) (hv : ∀ x, (g.arm x).vacate = [])
    (nc : g.cfg.nc ≤ 32) (nr : g.cfg.nr ≤ 24) (hp : allInStore g.poisoned) (hf : g.allInGrid g.fences) : g.recordsFit := by
  have owned : ∀ x c, g.ownedBy x c = false := fun x c => by simp [Guard.ownedBy, Guard.heldBy, hc, hv]
  refine ⟨fun c h => ?_, ⟨nc, nr, hp, hf, ?_, ?_, ?_⟩, ?_, ?_⟩
  · rw [owned] at h
    cases h.1
  · rw [show g.a.vacate = [] from hv .A]
    exact fun c hc => by cases hc
  · rw [show g.b.vacate = [] from hv .B]
    exact fun c hc => by cases hc
  · simp [hc]
  · simp [Guard.heldReserveNothing, hc]
  · simp [Guard.keysDiffer, Guard.keys, hc]

/-- With an empty claim table there is nothing to form anew. -/
theorem Event.settleRounds_unclaimed (n : Nat) {ev : Event} (h : ev.guard.claims = []) :
    (ev.settleRounds n).guard = ev.guard := by
  induction n generalizing ev with
  | zero => rfl
  | succ n ih =>
    unfold Event.settleRounds
    split
    · rfl
    · have none : ev.guard.keysWhere (fun c => c.isWaiting && meets (c.shape.cells ev.guard.cfg) ev.touched) = [] := by
        simp [Guard.keysWhere, h]
      dsimp only
      rw [none]
      exact ih (ev := { ev with touched := [] }) h

theorem Event.settle_unclaimed {ev : Event} (h : ev.guard.claims = []) : ev.settle.guard = ev.guard :=
  Event.settleRounds_unclaimed 769 h

/-- The map agrees with the records at the cells named. -/
def Guard.agreesAt (g : Guard) (p : Cell → Prop) : Prop := ∀ c, c.inStore → p c → g.entryOf c = g.derive c

/-- The guard in the course of RESTART's retry of the store: no claims, records that fit, a map that agrees so far. -/
structure Guard.Retrying (g : Guard) (p : Cell → Prop) : Prop where
  form : storeWf g.store = true
  claims : g.claims = []
  fit : g.recordsFit
  agrees : g.agreesAt p

/-- Records changed at one cell whose entry is then written. -/
theorem Guard.Retrying.write {g h : Guard} {p : Cell → Prop} (r : g.Retrying p) {c : Cell} (hc : c.inStore)
    (w : h.store = g.store) (hk : h.claims = []) (hf : h.recordsFit) (hd : ∀ d, d ≠ c → h.derive d = g.derive d) :
    (h.reindexCell c).Retrying fun d => d = c ∨ p d := by
  have hw : storeWf h.store = true := w ▸ r.form
  refine ⟨h.reindexCell_wf c hw, hk, Guard.recordsFit_of_records (h.reindexCell_records c) hf, fun d hdin hp => ?_⟩
  rw [h.entryOf_reindexCell hw hc hdin, Guard.derive_of_records (h.reindexCell_records c)]
  split
  · rename_i e
    rw [e]
  · rename_i e
    rw [hd d (Ne.symm e), Guard.entryOf, w]
    exact r.agrees d hdin (hp.resolve_left (Ne.symm e))

theorem Guard.Retrying.same {g h : Guard} {p : Cell → Prop} (r : g.Retrying p) (s : g.SameTray h) (hk : h.claims = []) :
    h.Retrying p :=
  ⟨s.2 ▸ r.form, hk, Guard.recordsFit_of_records s.1 r.fit, fun c hc hp => by
    rw [Guard.derive_of_records s.1, Guard.entryOf, s.2]
    exact r.agrees c hc hp⟩

theorem Guard.Retrying.mono {g : Guard} {p q : Cell → Prop} (r : g.Retrying p) (h : ∀ c, q c → p c) : g.Retrying q :=
  ⟨r.form, r.claims, r.fit, fun c hc hq => r.agrees c hc (h c hq)⟩

theorem Event.rewrite_retrying {ev : Event} {p : Cell → Prop} (r : ev.guard.Retrying p) {c : Cell} (hc : c.inStore) :
    (ev.rewrite c).1.guard.Retrying fun d => d = c ∨ p d := by
  have written := r.write hc rfl r.claims r.fit fun _ _ => rfl
  refine written.same (.drawFinding _) ?_
  have := congrArg List.length (Guard.trays_of_records (Guard.drawFinding_records (ev.guard.reindexCell c)))
  rw [List.length_map, List.length_map, written.claims] at this
  exact List.length_eq_zero_iff.1 this

theorem Event.poison_retrying {ev : Event} {p : Cell → Prop} (r : ev.guard.Retrying p) {c : Cell} (hc : c.inStore) :
    (ev.poison c).guard.Retrying fun d => d = c ∨ p d := by
  have claims : (ev.guard.poisonRecords c).claims = [] := by
    change ev.guard.claims.map _ = []
    rw [r.claims]
    rfl
  obtain ⟨-, ⟨-, -, poisoned, -⟩, -⟩ := r.fit
  exact r.write hc rfl claims
    (Guard.recordsFit_of_shrinks (ev.guard.poisonRecords_shrinks c) r.fit (Guard.poisonRecords_poisoned hc poisoned))
    fun d hne => ev.guard.poisonRecords_derive hne

theorem Event.rewriteAll_retrying {cells : CellSet} {ev : Event} {p : Cell → Prop} (r : ev.guard.Retrying p)
    (cause : PoisonCause) (hc : allInStore cells) :
    (ev.rewriteAll cause cells).guard.Retrying fun d => d ∈ cells ∨ p d := by
  induction cells generalizing ev p with
  | nil => exact r.mono fun c h => h.resolve_left List.not_mem_nil
  | cons c cs ih =>
    have hin := hc c List.mem_cons_self
    have hcs : allInStore cs := fun d hd => hc d (List.mem_cons_of_mem _ hd)
    have rewritten := Event.rewrite_retrying r hin
    have next : ∀ {e : Event}, e.guard.Retrying (fun d => d = c ∨ p d) →
        (e.rewriteAll cause cs).guard.Retrying fun d => d ∈ c :: cs ∨ p d := fun h =>
      (ih h hcs).mono fun d hd => by
        rw [List.mem_cons] at hd
        tauto
    unfold Event.rewriteAll at next ⊢
    rw [List.foldl_cons]
    dsimp only
    split
    · exact next rewritten
    · refine next ?_
      have poisoned := (Event.poison_retrying rewritten hin).mono fun d (h : d = c ∨ p d) => .inr h
      rw [Event.post_guard, Event.settle_unclaimed poisoned.claims]
      exact poisoned

/-- Every entry of the store written: the tray is in order. -/
theorem Event.rewriteStore_tidy {ev : Event} (w : storeWf ev.guard.store = true) (hk : ev.guard.claims = [])
    (hf : ev.guard.recordsFit) (cause : PoisonCause) : (ev.rewriteAll cause storeCells).guard.tidy := by
  have r : ev.guard.Retrying fun _ => False := ⟨w, hk, hf, fun _ _ h => h.elim⟩
  have done := Event.rewriteAll_retrying r cause fun c hc => mem_storeCells.1 hc
  exact ⟨done.form, fun c hc => done.agrees c hc (.inl (mem_storeCells.2 hc)), done.fit⟩

/-! ## CONFIGURE -/

/-- A configuration set of the same sides. -/
theorem Guard.withConfig_tidy {g : Guard} (t : g.tidy) {c : ConfigSet} (hc : c.nc = g.cfg.nc) (hr : c.nr = g.cfg.nr) :
    ({ g with cfg := c } : Guard).tidy := by
  obtain ⟨apart, ⟨nc, nr, poisoned, fences, va, vb, claims⟩, nothing, differ⟩ := t.fit
  have grid : ∀ k, c.inGrid k = g.cfg.inGrid k := fun k => by rw [ConfigSet.inGrid, ConfigSet.inGrid, hc, hr]
  have all : ∀ cells, g.allInGrid cells → ({ g with cfg := c } : Guard).allInGrid cells := fun cells h k hk =>
    (grid k).trans (h k hk)
  exact Guard.tidy_reindex (h := { g with cfg := c }) (cells := []) t rfl (by simp [allInStore])
    (fun d _ _ => Guard.derive_congr (grid d) (fun _ => rfl) (fun _ => Iff.rfl) Iff.rfl Iff.rfl (fun _ => rfl) rfl)
    ⟨apart, ⟨hc ▸ nc, hr ▸ nr, poisoned, all _ fences, all _ va, all _ vb,
      fun d hd => ⟨all _ (claims d hd).1, all _ (claims d hd).2⟩⟩, nothing, differ⟩

theorem Guard.placed_vacate (g : Guard) (c : ConfigSet) (x : Arm) : ((g.placed c).arm x).vacate = [] := by
  cases x <;> rfl

/-- A new grid with an empty claim table. -/
theorem Guard.changeGeometry_tidy {g : Guard} {c : ConfigSet} (w : storeWf g.store = true) (hk : g.claims = [])
    (hp : allInStore g.poisoned) (nc : c.nc ≤ 32) (nr : c.nr ≤ 24) : (g.changeGeometry c).tidy := by
  rw [Guard.changeGeometry_eq]
  have w' : storeWf (g.placed c).store = true := w
  have fit : (g.placed c).recordsFit :=
    Guard.recordsFit_of_nothing hk (g.placed_vacate c) nc nr hp fun c hc => by cases hc
  refine (Guard.SameTray.restartScrub _).tidy ⟨Guard.reindex_wf _ _ w', Guard.mapAgrees_reindex_store w', ?_⟩
  exact Guard.recordsFit_of_records (Guard.reindex_records _ _) fit

theorem Event.actionsChanged_tidy {ev : Event} (t : ev.guard.tidy) (old : ConfigSet) (x : Arm) :
    (ev.actionsChanged old x).guard.tidy := by
  unfold Event.actionsChanged
  split
  · exact t
  · exact (Event.settleLevel_eases t x).tidy

theorem Guard.serveConfigure_tidy {g : Guard} (t : g.tidy) (p : List Byte) : (g.serveConfigure p).1.guard.tidy := by
  unfold Guard.serveConfigure
  split
  · exact t
  · dsimp only
    split
    · exact t
    · split
      · exact t
      · rename_i present
        split
        · exact t
        · obtain ⟨nc, nr, -⟩ := ConfigSet.foldl_apply_sides (parseItems p) g.cfg
          generalize (parseItems p).foldl ConfigSet.apply g.cfg = c at nc nr present
          unfold Guard.applyConfig
          refine Event.actionsChanged_tidy (Event.actionsChanged_tidy ?_ _ _) _ _
          rw [Guard.event_guard]
          split
          · rename_i same
            exact Guard.withConfig_tidy t (ConfigSet.sameGeometry_sides same).1 (ConfigSet.sameGeometry_sides same).2
          · rename_i new
            obtain ⟨-, ⟨oldColumns, oldRows, -⟩, -⟩ := t.fit
            have none : g.claims = [] := by simpa [new] using present
            exact Guard.changeGeometry_tidy t.1 none t.poisoned (nc oldColumns) (nr oldRows)

/-! ## The other requests of the supervisor -/

theorem Guard.serveStart_tidy {g : Guard} (t : g.tidy) : g.serveStart.1.guard.tidy := by
  have entered : g.enterGuard.1.guard.tidy := Guard.SameTray.tidy ⟨rfl, rfl⟩ t
  unfold Guard.serveStart
  split
  · exact t
  · exact entered
  · split
    · exact t
    · exact entered

theorem Guard.serveStop_tidy {g : Guard} (t : g.tidy) : g.serveStop.1.guard.tidy := by
  unfold Guard.serveStop
  split
  · exact t
  · have withdrawn := Event.withdrawAll_eases (ev := g.event) t Claim.isPlan
    exact Guard.SameTray.tidy (g := (g.event.withdrawAll Claim.isPlan).guard) ⟨rfl, rfl⟩ withdrawn.tidy

theorem Guard.restarted_claims (g : Guard) : g.restarted.claims = [] := rfl

theorem Guard.restarted_vacate (g : Guard) (x : Arm) : (g.restarted.arm x).vacate = [] := by
  cases x <;> rfl

theorem Guard.serveRestart_tidy {g : Guard} (t : g.tidy) : g.serveRestart.1.guard.tidy := by
  obtain ⟨ev, hev, e⟩ := g.serveRestart_guard
  obtain ⟨-, ⟨nc, nr, -, fences, -⟩, -⟩ := t.fit
  have fit : g.restarted.recordsFit :=
    Guard.recordsFit_of_nothing g.restarted_claims g.restarted_vacate nc nr (fun c hc => by cases hc) fences
  rw [e, Event.post_guard]
  refine Event.rewriteStore_tidy ?_ ?_ ?_ .restart
  · rw [hev]
    exact g.restarted_sound.store t.1
  · rw [hev]
    exact g.restarted_claims
  · rw [hev]
    exact fit

theorem shapeAt_eq_some {cfg : ConfigSet} {p : List Byte} {i : Nat} {s : Shape} : shapeAt cfg p i = some s ↔
    parseShape (u8 p i) (p.drop (i + 1)) = some s ∧ s.valid cfg.nc cfg.nr = true := Option.filter_eq_some_iff

theorem Event.addFences_tidy {ev : Event} (t : ev.guard.tidy) {cells : CellSet} (hin : ev.guard.allInGrid cells) :
    (ev.addFences cells).guard.tidy := by
  unfold Event.addFences Event.fencesChanged
  refine (Event.settle_eases ?_).tidy
  exact Guard.fenceCells_tidy t hin

theorem Event.dropFences_tidy {ev : Event} (t : ev.guard.tidy) {cells : CellSet} (hin : ev.guard.allInGrid cells) :
    (ev.dropFences cells).guard.tidy := by
  unfold Event.dropFences Event.fencesChanged
  refine (Event.settle_eases ?_).tidy
  exact Guard.unfenceCells_tidy t hin

/-- The cells of a shape on the grid in force, or some of them, read. -/
theorem Guard.readShape_eases {g : Guard} (t : g.tidy) (who : Reader) (s : Shape) :
    g.Eases (g.event.readCells who (s.cells g.cfg)).1.guard :=
  Event.readCells_eases (ev := g.event) t who (t.allInStore (s.cells_allInGrid g))

theorem Guard.Eases.shape_allInGrid {g h : Guard} (e : g.Eases h) (s : Shape) : h.allInGrid (s.cells g.cfg) := by
  rw [← e.shrinks.cfg]
  exact s.cells_allInGrid h

theorem Guard.serveFence_tidy {g : Guard} (t : g.tidy) (p : List Byte) : (g.serveFence p).1.guard.tidy := by
  unfold Guard.serveFence
  split
  · exact t
  · rename_i s _
    have read := Guard.readShape_eases t .fence s
    exact Event.addFences_tidy read.tidy fun c hc => read.shape_allInGrid s c (mem_minusCells.1 hc).1

theorem Guard.serveUnfence_tidy {g : Guard} (t : g.tidy) (p : List Byte) : (g.serveUnfence p).1.guard.tidy := by
  unfold Guard.serveUnfence
  split
  · exact t
  · rename_i s _
    have read := Guard.readShape_eases t .fence s
    exact Event.dropFences_tidy read.tidy fun c hc => read.shape_allInGrid s c (List.mem_filter.1 hc).1

theorem Guard.serveLoadPlan_tidy {g : Guard} (t : g.tidy) (p : List Byte) : (g.serveLoadPlan p).1.guard.tidy := by
  unfold Guard.serveLoadPlan
  dsimp only
  split
  · split
    · exact t
    · split
      · exact t
      · split
        · exact t
        · exact (Guard.SameTray.onArm g _ (ArmState.setSlot_vacate _ _ _)).tidy t
  · exact t

theorem ArmState.activate_vacate (a : ArmState) (i : SlotIx) : (a.activate i).vacate = a.vacate := by
  unfold ArmState.activate
  split
  · exact a.setSlot_vacate _ _
  · rfl

theorem ArmState.finishSlot_vacate (a : ArmState) (i : SlotIx) (p : Plan) (why : EndReason) :
    (a.finishSlot i p why).vacate = a.vacate :=
  (ArmState.activate_vacate _ _).trans (a.setSlot_vacate _ _)

theorem Guard.dropActive_tidy {g : Guard} (t : g.tidy) (x : Arm) : (g.dropActive x).1.guard.tidy := by
  unfold Guard.dropActive
  split
  · exact t
  · rename_i i p _
    dsimp only
    rw [Event.callEvaluation_guard]
    refine (Event.endPlans_same _).tidy ?_
    have withdrawn := Event.withdrawAll_eases (ev := g.event) t fun c => c.fromSlot x i
    refine (Guard.SameTray.onArm _ x ?_).tidy withdrawn.tidy
    split
    · exact ArmState.finishSlot_vacate _ _ _ _
    · rfl

theorem Guard.dropLoaded_tidy {g : Guard} (t : g.tidy) (x : Arm) : (g.dropLoaded x).1.guard.tidy := by
  unfold Guard.dropLoaded
  split
  · exact t
  · exact (Guard.SameTray.onArm g _ (ArmState.setSlot_vacate _ _ _)).tidy t

theorem Guard.serveDropPlan_tidy {g : Guard} (t : g.tidy) (p : List Byte) : (g.serveDropPlan p).1.guard.tidy := by
  unfold Guard.serveDropPlan
  split
  · exact Guard.dropActive_tidy t _
  · exact Guard.dropLoaded_tidy t _
  · exact t

/-! ### A new claim's number (R65) -/

theorem Guard.claimCount_eq (g : Guard) (x : Arm) : g.claimCount x = (g.keys.filter fun k => k.arm = x).length := by
  rw [Guard.claimCount, Guard.keys, List.filter_map, List.length_map]
  rfl

theorem Guard.claimCount_le {g h : Guard} (s : h.keys.Sublist g.keys) (x : Arm) : h.claimCount x ≤ g.claimCount x := by
  rw [Guard.claimCount_eq, Guard.claimCount_eq]
  exact (s.filter _).length_le

/-- An arm with room for a claim gives it a number that none of its claims has. -/
theorem Guard.claimNumber_fresh {g : Guard} {x : Arm} (room : g.claimCount x < 2) :
    (⟨x, g.claimNumber x⟩ : ClaimKey) ∉ g.keys := by
  intro h
  obtain ⟨c, hc, e⟩ := List.mem_map.1 h
  obtain ⟨ha, hn⟩ : c.arm = x ∧ c.number = g.claimNumber x := by
    simp only [Claim.key, ClaimKey.mk.injEq] at e
    exact e
  unfold Guard.claimNumber at hn
  dsimp only at hn
  split at hn
  · rename_i used
    obtain ⟨d, hd, hp⟩ := List.any_eq_true.1 used
    simp only [Bool.and_eq_true, decide_eq_true_eq] at hp
    have only : (g.claims.filter fun c => c.arm = x).length ≤ 1 := by
      rw [Guard.claimCount] at room
      omega
    have hc : c ∈ g.claims.filter fun c => c.arm = x := List.mem_filter.2 ⟨hc, by simpa using ha⟩
    have hd : d ∈ g.claims.filter fun c => c.arm = x := List.mem_filter.2 ⟨hd, by simpa using hp.1⟩
    obtain ⟨b, hb⟩ := List.length_eq_one_iff.1 (Nat.le_antisymm only (List.length_pos_of_mem hc))
    rw [hb, List.mem_singleton] at hc hd
    rw [hc, ← hd, hp.2] at hn
    have : ∀ n : Byte, n ≠ n + 1 := by decide
    exact this _ hn
  · rename_i unused
    exact unused (List.any_eq_true.2 ⟨c, hc, by simp [ha, hn]⟩)

/-- A new claim of cells of the grid, for an arm that has room. -/
theorem Guard.newClaim_tidy {g : Guard} (t : g.tidy) {x : Arm} (room : g.claimCount x < 2) (o : Origin) (s : Shape)
    {cells : CellSet} (hin : g.allInGrid cells) (excluded priority : Nat) :
    (g.addClaim (g.newClaim x o s cells excluded priority)).tidy :=
  Guard.addClaim_tidy t rfl rfl hin (Guard.claimNumber_fresh room)

theorem Guard.serveClaimFor_tidy {g : Guard} (t : g.tidy) (p : List Byte) : (g.serveClaimFor p).1.guard.tidy := by
  unfold Guard.serveClaimFor
  dsimp only
  split
  · rename_i x s _ _
    split
    · exact t
    · rename_i room
      have formed := Guard.readShape_eases t .arbiter s
      split
      · exact formed.tidy
      · refine Guard.newClaim_tidy formed.tidy ?_ _ _ (fun c hc => ?_) _ _
        · exact Nat.lt_of_le_of_lt (Guard.claimCount_le formed.shrinks.keys x) (by omega)
        · exact formed.shape_allInGrid s c (List.mem_filter.1 hc).1
  · exact t

theorem Guard.serveRevoke_tidy {g : Guard} (t : g.tidy) (p : List Byte) : (g.serveRevoke p).1.guard.tidy := by
  unfold Guard.serveRevoke
  split
  · exact t
  · rename_i x _
    have ended := Event.endClaims_tidy (ev := g.event) (g.keysWhere fun c => c.arm = x) t
    dsimp only
    rw [Event.callEvaluation_guard]
    split
    · exact (Event.settleLevel_eases ((Event.raise_same _ _ _).tidy ended) _).tidy
    · exact ended

theorem Event.lower_same (ev : Event) (x : Arm) (src : Source) : ev.guard.SameTray (ev.lower x src).guard :=
  .onUnit ev.guard x _

theorem Guard.serveClearFaults_tidy {g : Guard} (t : g.tidy) (p : List Byte) :
    (g.serveClearFaults p).1.guard.tidy := by
  unfold Guard.serveClearFaults
  split
  · exact t
  · refine (Event.settleLevel_eases ?_ _).tidy
    exact (Event.foldl_same (f := fun ev src => ev.lower _ src) (fun ev src => ev.lower_same _ src) _ g.event).tidy t

theorem Guard.serveGetStatus_tidy {g : Guard} (t : g.tidy) (l : Link) : (g.serveGetStatus l).1.guard.tidy :=
  (Event.readCells_eases (ev := g.event) t .report (cells := g.cfg.gridCells) (t.allInStore fun _ h =>
    ConfigSet.inGrid_iff.2 (ConfigSet.mem_gridCells.1 h))).tidy

theorem Guard.serveGetRow_tidy {g : Guard} (t : g.tidy) (p : List Byte) : (g.serveGetRow p).1.guard.tidy := by
  unfold Guard.serveGetRow
  dsimp only
  split
  · exact t
  · rename_i h
    refine (Event.readCells_eases (ev := g.event) t .report (t.allInStore fun c hc => ?_)).tidy
    obtain ⟨k, hk, rfl⟩ := List.mem_map.1 hc
    exact ConfigSet.inGrid_iff.2 ⟨List.mem_range.1 hk, Nat.lt_of_not_le h⟩

theorem Guard.serveSetCounters_tidy {g : Guard} (t : g.tidy) (p : List Byte) : (g.serveSetCounters p).1.guard.tidy := by
  unfold Guard.serveSetCounters
  split
  · exact t
  · split
    · exact t
    · exact (Guard.SameTray.onArm g _ rfl).tidy t

theorem Guard.serve_tidy {g : Guard} (t : g.tidy) (l : Link) (kind : Byte) (p : List Byte) :
    (g.serve l kind p).1.guard.tidy :=
  Guard.serve_cases (Q := fun ev => ev.guard.tidy) g l kind p t (Guard.serveConfigure_tidy t p)
    (Guard.serveStart_tidy t) (Guard.serveStop_tidy t) (Guard.serveRestart_tidy t) (Guard.serveFence_tidy t p)
    (Guard.serveUnfence_tidy t p) (Guard.serveLoadPlan_tidy t p) (Guard.serveDropPlan_tidy t p)
    (Guard.serveClaimFor_tidy t p) (Guard.serveRevoke_tidy t p) (Guard.serveClearFaults_tidy t p)
    (Guard.serveGetStatus_tidy t l) (Guard.serveGetRow_tidy t p) (Guard.serveSetCounters_tidy t p)

/-! ## The requests of an arm -/

theorem Event.setLive_same (ev : Event) (x : Arm) (src : Source) (b : Bool) :
    ev.guard.SameTray (ev.setLive x src b).guard := by
  unfold Event.setLive
  split
  · exact ev.raise_same x src
  · exact ev.lower_same x src

theorem Event.intake_same (ev : Event) (x : Arm) (s : Sample) : ev.guard.SameTray (ev.intake x s).guard := by
  unfold Event.intake
  dsimp only
  refine .trans ?_ (.onArm _ x rfl)
  refine .trans ?_ (Event.setLive_same _ _ _ _)
  refine .trans ?_ (Event.signal_same _ _ _ _)
  have counted := fun b : Bool => (ev.setLive_same x .sampleEarly b).trans (Event.signal_same _ x .samplesAccepted 1)
  split
  · exact .trans (counted _) (Event.signal_same _ _ _ _)
  · exact counted _

theorem Event.calculate_same (ev : Event) (x : Arm) (s : Sample) : ev.guard.SameTray (ev.calculate x s).guard :=
  .trans (.trans (.onArm ev.guard x (f := fun a => { a with calculator := a.calculator.sample ev.guard.cfg x s }) rfl)
    (Event.signal_same (ev.onGuard fun g => g.onArm x fun a => { a with calculator := a.calculator.sample g.cfg x s }) x
      .velocityClamped s.velocity.clampCount)) (Event.lower_same _ x .noPosition)

/-- The cells of a box brought to the grid's edges are cells of the store. -/
theorem Box.cellRange_inStore {b : Box} {c : ConfigSet} {r : Rect} (nc : c.nc ≤ 32) (nr : c.nr ≤ 24)
    (h : b.cellRange c = some r) : allInStore r.cells := by
  unfold Box.cellRange at h
  dsimp only at h
  split at h
  · cases h
  · cases h
    intro k hk
    obtain ⟨hr, -, hc, -⟩ := mem_cellsWhere.1 hk
    dsimp only at hr hc
    exact ⟨by omega, by omega⟩

/-- The footprint that a sample gives lies in the store. -/
theorem Calculator.sample_cells_inStore (k : Calculator) {c : ConfigSet} (nc : c.nc ≤ 32) (nr : c.nr ≤ 24) (x : Arm)
    (s : Sample) : allInStore (k.sample c x s).cells := by
  unfold Calculator.cells
  split
  · rename_i r h
    simp only [Calculator.sample] at h
    split at h
    · exact Box.cellRange_inStore nc nr h
    · cases h
  · exact fun c hc => by cases hc

theorem Event.calculate_calculator (ev : Event) (x : Arm) (s : Sample) :
    ((ev.calculate x s).guard.arm x).calculator = (ev.guard.arm x).calculator.sample ev.guard.cfg x s := by
  simp [Event.calculate, Event.lower, Event.signal, Guard.signal, Guard.onUnit]

theorem Event.judge_eases {ev : Event} (t : ev.guard.tidy) (x : Arm)
    (h : allInStore (ev.guard.arm x).calculator.cells) : ev.guard.Eases (ev.judge x).guard :=
  (Event.readCells_eases t .monitor h).then_same (.onArm _ x rfl)

theorem Event.latchVerdict_same (ev : Event) (x : Arm) : ev.guard.SameTray (ev.latchVerdict x).guard := by
  have latch : ∀ (e : Event) (b : Bool) (src : Source), e.guard.SameTray (if b then e.raise x src else e).guard := by
    intro e b src
    split
    · exact e.raise_same x src
    · exact .refl _
  unfold Event.latchVerdict
  exact .trans (.trans (latch ev _ _) (latch _ _ _)) (latch _ _ _)

theorem Guard.SameTray.setEntered (g : Guard) (x : Arm) : g.SameTray (g.setEntered x) :=
  ⟨g.mapClaims_records fun c _ => by split <;> rfl, rfl⟩

theorem Event.handOver_tidy {ev : Event} (t : ev.guard.tidy) (x : Arm) (previous : Zone) :
    (ev.handOver x previous).guard.tidy := by
  unfold Event.handOver
  dsimp only
  refine (Event.vacateProgress_eases ?_ x).tidy
  split
  · exact Event.complete_tidy t x
  · exact t

theorem Event.acceptSample_tidy {ev : Event} (t : ev.guard.tidy) (x : Arm) (s : Sample) :
    (ev.acceptSample x s).guard.tidy := by
  unfold Event.acceptSample
  dsimp only
  have calculated : ((ev.intake x s).calculate x s).guard.tidy :=
    ((ev.intake_same x s).trans (Event.calculate_same _ x s)).tidy t
  have inStore : allInStore (((ev.intake x s).calculate x s).guard.arm x).calculator.cells := by
    obtain ⟨-, ⟨nc, nr, -⟩, -⟩ := ((ev.intake_same x s).tidy t).fit
    rw [Event.calculate_calculator]
    exact Calculator.sample_cells_inStore _ nc nr x s
  have judged := Event.judge_eases calculated x inStore
  have latched := (Event.latchVerdict_same _ x).tidy judged.tidy
  have settled := (Event.settleLevel_eases latched x).tidy
  exact Event.evaluateIfCalled_tidy (Event.handOver_tidy ((Guard.SameTray.setEntered _ x).tidy settled) x _)

theorem Guard.serveSample_tidy {g : Guard} (t : g.tidy) (x : Arm) (p : List Byte) :
    (g.serveSample x p).1.guard.tidy := by
  unfold Guard.serveSample
  split
  · exact t
  · exact Event.acceptSample_tidy (ev := g.event) t x _

theorem Event.issue_same (ev : Event) (x : Arm) (i : SlotIx) (p : Plan) :
    ev.guard.SameTray (ev.issue x i p).guard := by
  unfold Event.issue
  dsimp only
  split
  · exact ⟨Guard.onArm_records _ x (ArmState.finishSlot_vacate _ _ _ _), by simp⟩
  · exact ⟨Guard.onArm_records _ x (ArmState.setSlot_vacate _ _ _), by simp⟩

theorem Guard.requestEntry_tidy {g : Guard} (t : g.tidy) {x : Arm} (room : g.claimCount x < 2) (i : SlotIx) (p : Plan)
    (e : PlanEntry) : (g.requestEntry x i p e).1.guard.tidy := by
  have formed := Guard.readShape_eases t .arbiter e.shape
  unfold Guard.requestEntry
  dsimp only
  split
  · exact formed.tidy
  · rename_i q _
    have issued := formed.then_same (Event.issue_same (g.event.form (e.shape.cells g.cfg)).1 x i q)
    split
    · exact (Event.tally_same _ _ _ _).tidy issued.tidy
    · refine Guard.newClaim_tidy issued.tidy ?_ _ _ (fun c hc => ?_) _ _
      · exact Nat.lt_of_le_of_lt (Guard.claimCount_le issued.shrinks.keys x) room
      · exact issued.shape_allInGrid e.shape c (List.mem_filter.1 hc).1

theorem Guard.serveRequest_tidy {g : Guard} (t : g.tidy) (x : Arm) : (g.serveRequest x).1.guard.tidy := by
  unfold Guard.serveRequest
  split
  · exact t
  · split
    · exact t
    · split
      · exact t
      · split
        · exact t
        · rename_i room
          split
          · exact t
          · exact Guard.requestEntry_tidy t (Nat.lt_of_not_le room) _ _ _

theorem Guard.serveSkip_tidy {g : Guard} (t : g.tidy) (x : Arm) : (g.serveSkip x).1.guard.tidy := by
  unfold Guard.serveSkip
  split
  · exact t
  · split
    · exact t
    · exact ((g.event.issue_same _ _ _).trans (Event.tally_same _ _ _ _)).tidy t

theorem Guard.serveRelease_tidy {g : Guard} (t : g.tidy) (x : Arm) (p : List Byte) :
    (g.serveRelease x p).1.guard.tidy := by
  unfold Guard.serveRelease
  dsimp only
  split
  · exact t
  · split
    · exact t
    · rename_i c h
      obtain ⟨hk, hp⟩ := Option.filter_eq_some_iff.1 h
      exact Event.endHeld_tidy (ev := g.event) t (t.holds (Guard.claim?_some hk).1 (Claim.isHeld_iff.1 hp)) _

theorem Guard.serveArm_tidy {g : Guard} (t : g.tidy) (x : Arm) (kind : Byte) (p : List Byte) :
    (g.serveArm x kind p).1.guard.tidy :=
  Guard.serveArm_cases (Q := fun ev => ev.guard.tidy) g x kind p t ((Guard.SameTray.onArm g x rfl).tidy t)
    (Guard.serveSample_tidy t x p) (Guard.serveRequest_tidy t x) (Guard.serveSkip_tidy t x) (Guard.serveRelease_tidy t x p)

/-! ## Timers, scrub and power -/

theorem Guard.gapExpiry_tidy {g : Guard} (t : g.tidy) (x : Arm) : (g.gapExpiry x).guard.tidy := by
  refine (Event.settleLevel_eases ?_ x).tidy
  have counted := (g.quietEvent.raise_same x .sampleGap).trans (Event.signal_same _ x .gaps 1)
  exact (counted.trans (.onArm _ x rfl)).tidy t

theorem Guard.agingExpiry_tidy {g : Guard} (t : g.tidy) (k : ClaimKey) : (g.agingExpiry k).guard.tidy :=
  Guard.SameTray.tidy (g := g) ⟨g.mapClaims_records fun c _ => by split <;> rfl, rfl⟩ t

theorem Event.escalate_same (ev : Event) (x : Arm) (e : Escalation) : ev.guard.SameTray (ev.escalate x e).guard :=
  ⟨Guard.onUnit_records _ x _, by simp [Event.escalate]⟩

theorem Guard.slowExpiry_tidy {g : Guard} (t : g.tidy) (x : Arm) : (g.slowExpiry x).guard.tidy := by
  unfold Guard.slowExpiry
  dsimp only
  have stopped : (g.quietEvent.onGuard fun g => g.onUnit x fun u => { u with slowTimer := none }).guard.tidy :=
    (Guard.SameTray.onUnit g x fun u => { u with slowTimer := none }).tidy t
  split
  · exact (Event.settleLevel_eases ((Event.escalate_same _ x .hold).tidy stopped) x).tidy
  · exact stopped

theorem Guard.holdExpiry_tidy {g : Guard} (t : g.tidy) (x : Arm) : (g.holdExpiry x).guard.tidy := by
  unfold Guard.holdExpiry
  dsimp only
  have stopped : (g.quietEvent.onGuard fun g => g.onUnit x fun u => { u with holdTimer := none }).guard.tidy :=
    (Guard.SameTray.onUnit g x fun u => { u with holdTimer := none }).tidy t
  split
  · exact (Event.settleLevel_eases ((Event.escalate_same _ x .halt).tidy stopped) x).tidy
  · exact stopped

theorem Guard.SameTray.leak (g : Guard) : g.SameTray g.leak := ⟨rfl, rfl⟩

theorem Guard.SameTray.advanceScrub (g : Guard) : g.SameTray g.advanceScrub := by
  unfold Guard.advanceScrub
  dsimp only
  split <;> exact ⟨rfl, rfl⟩

theorem Guard.visit_tidy {g : Guard} (t : g.tidy) (h : g.cursorInList) : g.visit.guard.tidy :=
  (Guard.SameTray.advanceScrub _).tidy
    (Event.readCell_eases (ev := g.quietEvent) t .scrub (t.inStore (Guard.scrubCell_inGrid h))).tidy

theorem Guard.SameTray.waitStep (g : Guard) (x : Arm) : g.SameTray (g.waitStep x) := by
  unfold Guard.waitStep
  split
  · exact .refl g
  · exact .trans (.trans (.signal g x _ _) (.signal _ x _ _)) (.onArm _ x rfl)

theorem Guard.SameTray.restraintStep (g : Guard) (x : Arm) : g.SameTray (g.restraintStep x) := by
  unfold Guard.restraintStep
  split
  · exact .refl g
  · exact .signal g x _ _

theorem Guard.SameTray.tick (g : Guard) : g.SameTray g.tick := by
  unfold Guard.tick
  dsimp only
  split
  · exact ⟨rfl, rfl⟩
  · have a := (Guard.SameTray.restraintStep g .A).trans (.waitStep _ .A)
    have b := (a.trans (.restraintStep _ .B)).trans (.waitStep _ .B)
    exact b.trans ⟨rfl, rfl⟩

theorem Guard.SameTray.leaveInit (g : Guard) : g.SameTray g.leaveInit := by
  have begun : g.SameTray { g with
      mode := .setup, linesCut := !g.permitSupply, leakTimer := g.timerFor (msSteps g.cfg.tLeak) } := ⟨rfl, rfl⟩
  exact ((begun.trans (.changeLevel _ .A _)).trans (.changeLevel _ .B _)).trans (.restartScrub _)

theorem Guard.endInit_tidy {g : Guard} (t : g.tidy) : g.endInit.guard.tidy := by
  unfold Guard.endInit
  rw [Event.post_guard, Event.onGuard_guard]
  refine (Guard.SameTray.leaveInit _).tidy ?_
  exact (Event.rewriteAll_eases (ev := g.quietEvent) t .init fun c hc => mem_storeCells.1 hc).tidy

theorem Guard.SameTray.followLines (g : Guard) (x : Arm) : g.SameTray (g.followLines x) :=
  ⟨g.followLines_records x, g.followLines_store x⟩

theorem Guard.SameTray.cutLines (g : Guard) : g.SameTray g.cutLines :=
  .trans (h := { g with linesCut := true }) ⟨rfl, rfl⟩ (.trans (.followLines _ .A) (.followLines _ .B))

/-- At power-on every entry is FREE and the records give nothing else. -/
theorem Guard.initial_tidy : Guard.initial.tidy := by
  have retired : ∀ s, Guard.initial.isRetired s = false := fun s => by
    match s with
    | 0 => rfl
    | 1 => rfl
    | 2 => rfl
    | _ + 3 => rfl
  refine ⟨rfl, fun c _ => ?_, Guard.recordsFit_of_nothing rfl (fun x => by cases x <;> rfl) (Nat.le_refl 32)
    (Nat.le_refl 24) (fun c hc => by cases hc) (fun c hc => by cases hc)⟩
  have owner : Guard.initial.ownerOf c = none := rfl
  have derived : Guard.initial.derive c = .free := by
    simp only [Guard.derive, owner, retired]
    split <;> rfl
  rw [derived]
  rfl

/-- The invariant that a visit of the scrub needs, kept by every kind of event. -/
theorem Guard.Kept.tray : Guard.Kept fun g => g.tidy ∧ g.cursorInList := by
  have cursor : Guard.Kept fun g => g.cursorInList ∧ g.cfg.nc ≤ 32 := .of_sound fun _ _ s => s.cursor
  have both : ∀ {g h : Guard}, (g.cursorInList ∧ g.cfg.nc ≤ 32 → h.cursorInList ∧ h.cfg.nc ≤ 32) →
      (g.tidy → g.cursorInList → h.tidy) → g.tidy ∧ g.cursorInList → h.tidy ∧ h.cursorInList :=
    fun c t ⟨ht, hc⟩ => ⟨t ht hc, (c ⟨hc, ht.columns⟩).1⟩
  exact {
    powerOn := fun g => both (cursor.powerOn g) fun _ _ =>
      Guard.SameTray.tidy (g := Guard.initial) ⟨rfl, rfl⟩ Guard.initial_tidy
    permitLoss := fun g => both (cursor.permitLoss g) fun t _ =>
      Guard.SameTray.tidy (g := g.cutLines) ⟨rfl, rfl⟩ ((Guard.SameTray.cutLines g).tidy t)
    logicLoss := fun g => both (cursor.logicLoss g) fun t _ =>
      Guard.SameTray.tidy (g := g.cutLines) ⟨rfl, rfl⟩ ((Guard.SameTray.cutLines g).tidy t)
    shorted := fun g x line o => both (cursor.shorted g x line o) fun t _ => (Guard.SameTray.onUnit g x _).tidy t
    initEnd := fun g hm => both (cursor.initEnd g hm) fun t _ => Event.finish_tidy (Guard.endInit_tidy t)
    serve := fun g l kind p => both (cursor.serve g l kind p) fun t _ => Event.finish_tidy (Guard.serve_tidy t l kind p)
    serveArm := fun g x kind p hk => both (cursor.serveArm g x kind p hk) fun t _ =>
      Event.finish_tidy (Guard.serveArm_tidy t x kind p)
    gapExpiry := fun g x hd => both (cursor.gapExpiry g x hd) fun t _ => Event.finish_tidy (Guard.gapExpiry_tidy t x)
    agingExpiry := fun g k c hk hw => both (cursor.agingExpiry g k c hk hw) fun t _ =>
      Event.finish_tidy (Guard.agingExpiry_tidy t c.key)
    timeoutExpiry := fun g k c hk hw => both (cursor.timeoutExpiry g k c hk hw) fun t _ =>
      Event.finish_tidy (Event.bounce_eases g.quietEvent_guard t (Guard.claim?_some hk).1 hw .timeout).tidy
    slowExpiry := fun g x hd => both (cursor.slowExpiry g x hd) fun t _ => Event.finish_tidy (Guard.slowExpiry_tidy t x)
    holdExpiry := fun g x hd => both (cursor.holdExpiry g x hd) fun t _ => Event.finish_tidy (Guard.holdExpiry_tidy t x)
    leak := fun g => both (cursor.leak g) fun t _ => (Guard.SameTray.leak g).tidy t
    visit := fun g hd => both (cursor.visit g hd) fun t hc => Event.finish_tidy (Guard.visit_tidy t hc)
    tick := fun g => both (cursor.tick g) fun t _ => (Guard.SameTray.tick g).tidy t }

/-- Settles O51: every change of the records is followed by the writing of the entries it can change, a grant comes after a
test that leaves the other arm none of the claim's cells, and what moves the scrub cursor keeps it in its list. -/
theorem trayStaysInOrder : Obligations.TrayStaysInOrder := by
  rintro s t ⟨form, order, cursor⟩ e
  obtain ⟨⟨form', order'⟩, cursor'⟩ := Guard.Kept.tray.step e ⟨⟨form, order⟩, cursor⟩
  exact ⟨form', order', cursor'⟩

end Sys2Proof.Machine


/-! # The grid's points and the cells of a shape (O46, O47) -/

namespace Sys2Proof.Machine

/-! ## Row-major order -/

theorem Cell.before_iff {c d : Cell} : c.before d = true ↔ c.row < d.row ∨ (c.row = d.row ∧ c.col < d.col) := by
  simp [Cell.before]

theorem cellsWhere_rising (nc nr : Nat) (keepRow : Nat → Bool) (keepCol : Nat → Nat → Bool) :
    (cellsWhere nc nr keepRow keepCol).Pairwise fun k l => k.before l = true := by
  refine List.pairwise_flatMap.2 ⟨fun r _ => ?_, ?_⟩
  · split
    · rw [List.pairwise_map]
      refine (List.pairwise_lt_range.filter _).imp ?_
      exact fun h => Cell.before_iff.2 (.inr ⟨rfl, h⟩)
    · exact List.Pairwise.nil
  · refine List.pairwise_lt_range.imp fun {r r'} h k hk l hl => ?_
    have inRow : ∀ {r : Nat} {k : Cell},
        k ∈ (if keepRow r then ((List.range nc).filter fun c => keepCol c r).map fun c => ⟨c, r⟩ else []) → k.row = r := by
      intro r k hk
      split at hk
      · obtain ⟨c, -, rfl⟩ := List.mem_map.1 hk
        rfl
      · cases hk
    exact Cell.before_iff.2 (.inl (by rw [inRow hk, inRow hl]; exact h))

theorem cellsWhere_nodup (nc nr : Nat) (keepRow : Nat → Bool) (keepCol : Nat → Nat → Bool) :
    (cellsWhere nc nr keepRow keepCol).Nodup := by
  refine (cellsWhere_rising nc nr keepRow keepCol).imp ?_
  rintro k _ h rfl
  rcases Cell.before_iff.1 h with h | ⟨-, h⟩ <;> exact Nat.lt_irrefl _ h

theorem Shape.cells_nodup (s : Shape) (cfg : ConfigSet) : (s.cells cfg).Nodup := cellsWhere_nodup _ _ _ _

/-! ## The cell of a point (R1) -/

theorem floor_eq_iff {x x0 k : Int} {pitch : Nat} (hp : 0 < pitch) :
    (x - x0) / (pitch : Int) = k ↔ x0 + k * pitch ≤ x ∧ x < x0 + (k + 1) * pitch := by
  rw [Int.ediv_eq_iff_of_pos (by omega)]
  constructor <;> rintro ⟨h, h'⟩ <;> constructor <;> linarith

theorem ConfigSet.cellAt_eq_some {c : ConfigSet} {x y : Int} {k : Cell} : c.cellAt x y = some k ↔
    c.columnOf x = k.col ∧ c.rowOf y = k.row ∧ k.col < c.nc ∧ k.row < c.nr := by
  obtain ⟨col, row⟩ := k
  unfold ConfigSet.cellAt
  dsimp only
  split
  · simp only [Option.some.injEq, Cell.mk.injEq]
    omega
  · simp only [reduceCtorEq, false_iff]
    omega

/-- Settles O47: the floor of R1 by its two inequalities, and the grid's cells by the rows and columns kept. -/
theorem cellOfPoint : Obligations.CellOfPoint := by
  unfold Obligations.CellOfPoint
  intro c x y hp
  exact ⟨fun k => floor_eq_iff hp, fun k => floor_eq_iff hp, fun k => ConfigSet.cellAt_eq_some,
    fun k => ConfigSet.mem_gridCells, cellsWhere_rising _ _ _ _⟩

/-! ## The bits of a shape's bytes -/

theorem u8_lt (p : List Byte) (i : Nat) : u8 p i < 2 ^ 8 := BitVec.isLt _

theorem testBit_low_byte {lo hi c : Nat} (h : lo < 2 ^ 8) (hc : c < 8) : (lo + 256 * hi).testBit c = lo.testBit c := by
  rw [Nat.add_comm, show (256 : Nat) = 2 ^ 8 from rfl, Nat.testBit_two_pow_mul_add _ h, if_pos hc]

theorem testBit_high_bytes {lo hi c : Nat} (h : lo < 2 ^ 8) (hc : 8 ≤ c) :
    (lo + 256 * hi).testBit c = hi.testBit (c - 8) := by
  rw [Nat.add_comm, show (256 : Nat) = 2 ^ 8 from rfl, Nat.testBit_two_pow_mul_add _ h, if_neg (by omega)]

theorem u32_bytes (p : List Byte) (i : Nat) :
    u32 p i = u8 p i + 256 * (u8 p (i + 1) + 256 * (u8 p (i + 2) + 256 * u8 p (i + 3))) := by
  unfold u32 u16
  rw [Nat.add_assoc i 2 1]
  omega

/-- A little-endian word's bit c is bit c % 8 of its byte c / 8. -/
theorem u32_testBit (p : List Byte) (i : Nat) {c : Nat} (hc : c < 32) :
    (u32 p i).testBit c = (u8 p (i + c / 8)).testBit (c % 8) := by
  have byteOf : ∀ n, n < 4 → c / 8 = n → c % 8 = c - 8 * n := by omega
  rw [u32_bytes]
  by_cases h1 : c < 8
  · rw [testBit_low_byte (u8_lt p i) h1, show c / 8 = 0 by omega, show c % 8 = c by omega]
    rfl
  rw [testBit_high_bytes (u8_lt p i) (by omega)]
  by_cases h2 : c < 16
  · rw [testBit_low_byte (u8_lt p _) (by omega), show c / 8 = 1 by omega, byteOf 1 (by omega) (by omega)]
  rw [testBit_high_bytes (u8_lt p _) (by omega)]
  by_cases h3 : c < 24
  · rw [testBit_low_byte (u8_lt p _) (by omega), show c / 8 = 2 by omega, byteOf 2 (by omega) (by omega)]
    congr 1
  rw [testBit_high_bytes (u8_lt p _) (by omega), show c / 8 = 3 by omega, byteOf 3 (by omega) (by omega)]
  congr 1

theorem bitVec_ne_zero_iff {w : Nat} {v : BitVec w} : v ≠ 0#w ↔ ∃ i < w, v.getLsbD i = true := by
  constructor
  · intro h
    by_contra none
    push Not at none
    refine h (BitVec.eq_of_getLsbD_eq fun i hi => ?_)
    simpa using none i hi
  · rintro ⟨i, -, hi⟩ rfl
    simp at hi

/-! ## Validity (R8, R9, R10) -/

theorem Shape.rect_valid_iff {cLo cHi rLo rHi nc nr : Nat} : (Shape.rect cLo cHi rLo rHi).valid nc nr = true ↔
    cLo ≤ cHi ∧ cHi < nc ∧ rLo ≤ rHi ∧ rHi < nr := by
  simp [Shape.valid, and_assoc]

theorem Shape.strip_valid_iff {r nc nr : Nat} {columns : BitVec 32} : (Shape.strip r columns).valid nc nr = true ↔
    r < nr ∧ (∃ c < 32, columns.getLsbD c = true) ∧ ∀ c < 32, columns.getLsbD c = true → c < nc := by
  rw [← bitVec_ne_zero_iff]
  simp [Shape.valid, and_assoc, imp_iff_not_or]

theorem Shape.quad_valid_iff {c r nc nr : Nat} {positions : BitVec 4} : (Shape.quad c r positions).valid nc nr = true ↔
    c + 2 ≤ nc ∧ r + 2 ≤ nr ∧ ∃ i < 4, positions.getLsbD i = true := by
  rw [← bitVec_ne_zero_iff]
  simp [Shape.valid, and_assoc]

/-! ## The cells of a valid shape -/

theorem Shape.mem_cells {s : Shape} {cfg : ConfigSet} {k : Cell} : k ∈ s.cells cfg ↔
    k.row < cfg.nr ∧ s.hasRow k.row = true ∧ k.col < cfg.nc ∧ s.has k.col k.row = true := mem_cellsWhere

theorem Shape.mem_rect_cells {cfg : ConfigSet} {cLo cHi rLo rHi : Nat}
    (v : (Shape.rect cLo cHi rLo rHi).valid cfg.nc cfg.nr = true) (k : Cell) :
    k ∈ (Shape.rect cLo cHi rLo rHi).cells cfg ↔ cLo ≤ k.col ∧ k.col ≤ cHi ∧ rLo ≤ k.row ∧ k.row ≤ rHi := by
  obtain ⟨-, hc, -, hr⟩ := Shape.rect_valid_iff.1 v
  rw [Shape.mem_cells]
  simp only [Shape.hasRow, Shape.has, Bool.and_eq_true, decide_eq_true_eq]
  omega

theorem Shape.rect_cells_length {cfg : ConfigSet} {cLo cHi rLo rHi : Nat}
    (v : (Shape.rect cLo cHi rLo rHi).valid cfg.nc cfg.nr = true) :
    ((Shape.rect cLo cHi rLo rHi).cells cfg).length = (cHi - cLo + 1) * (rHi - rLo + 1) := by
  have sides : ((Shape.rect cLo cHi rLo rHi).cells cfg).toFinset =
      (Finset.Icc cLo cHi ×ˢ Finset.Icc rLo rHi).image fun p => (⟨p.1, p.2⟩ : Cell) := by
    ext ⟨c, r⟩
    rw [List.mem_toFinset, Shape.mem_rect_cells v]
    simp only [Finset.mem_image, Finset.mem_product, Finset.mem_Icc, Prod.exists, Cell.mk.injEq]
    constructor
    · rintro ⟨h1, h2, h3, h4⟩
      exact ⟨c, r, ⟨⟨h1, h2⟩, h3, h4⟩, rfl, rfl⟩
    · rintro ⟨c, r, ⟨⟨h1, h2⟩, h3, h4⟩, rfl, rfl⟩
      exact ⟨h1, h2, h3, h4⟩
  have oneToOne : Function.Injective fun p : Nat × Nat => (⟨p.1, p.2⟩ : Cell) := by
    rintro ⟨c, r⟩ ⟨c', r'⟩ h
    cases h
    rfl
  obtain ⟨hc, -, hr, -⟩ := Shape.rect_valid_iff.1 v
  rw [← List.toFinset_card_of_nodup (Shape.cells_nodup _ cfg), sides, Finset.card_image_of_injective _ oneToOne,
    Finset.card_product, Nat.card_Icc, Nat.card_Icc, Nat.succ_sub hc, Nat.succ_sub hr]

theorem Shape.mem_strip_cells {cfg : ConfigSet} {r : Nat} {columns : BitVec 32}
    (v : (Shape.strip r columns).valid cfg.nc cfg.nr = true) (k : Cell) :
    k ∈ (Shape.strip r columns).cells cfg ↔ k.row = r ∧ columns.getLsbD k.col = true := by
  obtain ⟨hr, -, hc⟩ := Shape.strip_valid_iff.1 v
  rw [Shape.mem_cells]
  simp only [Shape.hasRow, Shape.has, Bool.and_eq_true, decide_eq_true_eq]
  constructor
  · rintro ⟨-, h, -, -, hb⟩
    exact ⟨h, hb⟩
  · rintro ⟨rfl, hb⟩
    exact ⟨hr, rfl, hc _ (BitVec.lt_of_getLsbD hb) hb, rfl, hb⟩

theorem Shape.mem_quad_cells {cfg : ConfigSet} {c r : Nat} {positions : BitVec 4}
    (v : (Shape.quad c r positions).valid cfg.nc cfg.nr = true) (k : Cell) :
    k ∈ (Shape.quad c r positions).cells cfg ↔
      (k = ⟨c, r⟩ ∧ positions.getLsbD 0 = true) ∨ (k = ⟨c + 1, r⟩ ∧ positions.getLsbD 1 = true) ∨
      (k = ⟨c, r + 1⟩ ∧ positions.getLsbD 2 = true) ∨ (k = ⟨c + 1, r + 1⟩ ∧ positions.getLsbD 3 = true) := by
  obtain ⟨hc, hr, -⟩ := Shape.quad_valid_iff.1 v
  obtain ⟨col, row⟩ := k
  rw [Shape.mem_cells]
  simp only [Shape.hasRow, Shape.has, Bool.and_eq_true, Bool.or_eq_true, decide_eq_true_eq, Cell.mk.injEq]
  constructor
  · rintro ⟨-, -, -, h⟩
    tauto
  · intro h
    have inside : row < cfg.nr ∧ (row = r ∨ row = r + 1) ∧ col < cfg.nc := by omega
    tauto

theorem parseShape_other {kind : Nat} {b : List Byte} (h : kind = 0 ∨ 3 < kind) : parseShape kind b = none := by
  unfold parseShape
  split
  · omega
  · omega
  · omega
  · rfl

theorem parseShape_strip (b : List Byte) : ∃ columns, parseShape 2 b = some (.strip (u8 b 0) columns) ∧
    ∀ c < 32, columns.getLsbD c = (u8 b (1 + c / 8)).testBit (c % 8) := by
  refine ⟨BitVec.ofNat 32 (u32 b 1), rfl, fun c hc => ?_⟩
  rw [BitVec.getLsbD_ofNat, decide_eq_true hc, Bool.true_and, u32_testBit b 1 hc]

theorem parseShape_quad (b : List Byte) : ∃ positions, parseShape 3 b = some (.quad (u8 b 0) (u8 b 1) positions) ∧
    ∀ i < 4, positions.getLsbD i = (u8 b 2).testBit i := by
  refine ⟨BitVec.ofNat 4 (u8 b 2), rfl, fun i hi => ?_⟩
  rw [BitVec.getLsbD_ofNat, decide_eq_true hi, Bool.true_and]

/-- Settles O46: each kind's validity and cells by its lemmas, the order by that of the rows and columns visited. -/
theorem shapesAndCells : Obligations.ShapesAndCells := by
  unfold Obligations.ShapesAndCells
  refine ⟨fun kind b => ⟨?_, ?_, ?_, parseShape_other⟩, fun cfg p i shape => shapeAt_eq_some, fun cfg => ⟨?_, ?_, ?_, ?_⟩⟩
  · rintro rfl
    rfl
  · rintro rfl
    exact parseShape_strip b
  · rintro rfl
    exact parseShape_quad b
  · intro cLo cHi rLo rHi
    exact ⟨Shape.rect_valid_iff, fun v => ⟨Shape.rect_cells_length v, Shape.mem_rect_cells v⟩⟩
  · intro r columns
    exact ⟨Shape.strip_valid_iff, Shape.mem_strip_cells⟩
  · intro c r positions
    exact ⟨Shape.quad_valid_iff, Shape.mem_quad_cells⟩
  · exact fun shape => cellsWhere_rising _ _ _ _

end Sys2Proof.Machine


/-! # A change of grid geometry (O13)

With an empty claim table a level computed anew withdraws nothing, so a CONFIGURE that changes the geometry comes to
`Guard.changeGeometry` and then to changes of the action units alone. -/

namespace Sys2Proof.Machine

/-! ## Levels computed with nothing to withdraw -/

/-- The second guard differs from the first in the action units alone, and not in their sources. -/
structure Guard.LevelsMove (g h : Guard) : Prop where
  rest : { h with a := g.a, b := g.b } = g
  arm : ∀ x, { h.arm x with unit := (g.arm x).unit } = g.arm x
  sources : ∀ x, (h.arm x).unit.sources = (g.arm x).unit.sources

theorem Guard.LevelsMove.refl (g : Guard) : g.LevelsMove g := ⟨rfl, fun _ => rfl, fun _ => rfl⟩

theorem Guard.LevelsMove.trans {g h k : Guard} (a : g.LevelsMove h) (b : h.LevelsMove k) : g.LevelsMove k where
  rest := (congrArg (fun k' : Guard => { k' with a := g.a, b := g.b }) b.rest).trans a.rest
  arm x := (congrArg (fun k' : ArmState => { k' with unit := (g.arm x).unit }) (b.arm x)).trans (a.arm x)
  sources x := (b.sources x).trans (a.sources x)

theorem Guard.LevelsMove.changeLevel (g : Guard) (x : Arm) (l : Level) : g.LevelsMove (g.changeLevel x l) := by
  refine ⟨?_, fun y => ?_, fun y => ?_⟩
  · cases x <;> rfl
  · cases x <;> cases y <;> rfl
  · cases x <;> cases y <;> rfl

/-- What does not look at the arms is the same. -/
theorem Guard.LevelsMove.same {α : Type} {g h : Guard} (m : g.LevelsMove h) (f : Guard → α)
    (blind : ∀ (k : Guard) (a b : ArmState), f { k with a := a, b := b } = f k) : f h = f g :=
  (blind h g.a g.b).symm.trans (congrArg f m.rest)

/-- What of an arm does not look at its action unit is the same. -/
theorem Guard.LevelsMove.armSame {α : Type} {g h : Guard} (m : g.LevelsMove h) (x : Arm) (f : ArmState → α)
    (blind : ∀ (a : ArmState) (u : ActionUnit), f { a with unit := u } = f a) : f (h.arm x) = f (g.arm x) :=
  (blind (h.arm x) (g.arm x).unit).symm.trans (congrArg f (m.arm x))

theorem Guard.LevelsMove.claims {g h : Guard} (m : g.LevelsMove h) : h.claims = g.claims :=
  m.same Guard.claims fun _ _ _ => rfl

theorem Guard.LevelsMove.sameTray {g h : Guard} (m : g.LevelsMove h) : g.SameTray h := by
  refine ⟨?_, m.same Guard.store fun _ _ _ => rfl⟩
  have grid : h.grid = g.grid := m.same Guard.grid fun _ _ _ => rfl
  have fences : h.fences = g.fences := m.same Guard.fences fun _ _ _ => rfl
  have poisoned : h.poisoned = g.poisoned := m.same Guard.poisoned fun _ _ _ => rfl
  have va : h.a.vacate = g.a.vacate := m.armSame .A ArmState.vacate fun _ _ => rfl
  have vb : h.b.vacate = g.b.vacate := m.armSame .B ArmState.vacate fun _ _ => rfl
  unfold Guard.records
  rw [grid, fences, poisoned, va, vb, m.claims]

/-- With an empty claim table nothing is withdrawn. -/
theorem Event.withdrawAll_unclaimed {ev : Event} (h : ev.guard.claims = []) (p : Claim → Bool) :
    ev.withdrawAll p = ev := by
  unfold Event.withdrawAll Guard.keysWhere
  rw [h]
  rfl

/-- A level computed with an empty claim table: nothing is left to follow. -/
theorem Guard.settleLevel_unclaimed {g : Guard} (h : g.claims = []) (x : Arm) :
    ∃ k, g.event.settleLevel x = k.event ∧ g.LevelsMove k := by
  unfold Event.settleLevel Event.computeLevel
  dsimp only
  split
  · exact ⟨g, rfl, .refl g⟩
  · have moved := Guard.LevelsMove.changeLevel g x (g.levelFor x)
    refine ⟨g.changeLevel x (g.levelFor x), ?_, moved⟩
    split
    · rw [Event.withdrawAll_unclaimed]
      · rfl
      · exact moved.claims.trans h
    · rfl

theorem Guard.actionsChanged_unclaimed {g : Guard} (h : g.claims = []) (old : ConfigSet) (x : Arm) :
    ∃ k, g.event.actionsChanged old x = k.event ∧ g.LevelsMove k := by
  unfold Event.actionsChanged
  split
  · exact ⟨g, rfl, .refl g⟩
  · exact Guard.settleLevel_unclaimed h x

/-! ## The change of geometry -/

/-- Entries written from the records: the store alone changes. -/
theorem Guard.reindex_store_only (g : Guard) (cells : CellSet) : ∃ st, g.reindex cells = { g with store := st } := by
  induction cells generalizing g with
  | nil => exact ⟨g.store, rfl⟩
  | cons c cs ih =>
    obtain ⟨st, e⟩ := ih (g.reindexCell c)
    exact ⟨st, e⟩

/-- What looks neither at the store nor at the scrub cursor is as the records on the new grid have it. -/
theorem Guard.changeGeometry_same {α : Type} (g : Guard) (c : ConfigSet) (f : Guard → α)
    (blind : ∀ (k : Guard) (st : CellStore) (sc : ScrubCursor), f { k with store := st, scrub := sc } = f k) :
    f (g.changeGeometry c) = f (g.placed c) := by
  obtain ⟨st, e⟩ := (g.placed c).reindex_store_only storeCells
  rw [Guard.changeGeometry_eq, e]
  exact blind (g.placed c) st _

theorem Guard.placed_arm (g : Guard) (c : ConfigSet) (x : Arm) : (g.placed c).arm x =
    { g.arm x with vacate := [], calculator := (g.arm x).calculator.replace c } := by
  cases x <;> rfl

theorem Guard.SameTray.mapAgrees {g h : Guard} (s : g.SameTray h) (m : g.mapAgrees) : h.mapAgrees := by
  intro c hc
  rw [Guard.derive_of_records s.1, Guard.entryOf, s.2]
  exact m c hc

theorem Guard.changeGeometry_mapAgrees {g : Guard} (c : ConfigSet) (w : storeWf g.store = true) :
    (g.changeGeometry c).mapAgrees := by
  rw [Guard.changeGeometry_eq]
  have placed : storeWf (g.placed c).store = true := w
  exact (Guard.SameTray.restartScrub _).mapAgrees (Guard.mapAgrees_reindex_store placed)

/-- CONFIGURE with a new geometry, an empty claim table and an active section under it. -/
theorem Guard.serveConfigure_geometry {g : Guard} {p : List Byte} (hm : g.mode = .setup)
    (hb : firstBadItem [] 0 (parseItems p) = none) (hc : g.claims = [])
    (hg : g.cfg.sameGeometry ((parseItems p).foldl ConfigSet.apply g.cfg) = false)
    (hn : g.cfg.nc = ((parseItems p).foldl ConfigSet.apply g.cfg).nc ∨
      g.noSectionFor ((parseItems p).foldl ConfigSet.apply g.cfg) = false) :
    ∃ k, g.serveConfigure p = (k.event,
        .ok (byte (clampedCount (parseItems p) + 128) :: clampedBytes (parseItems p))) ∧
      (g.changeGeometry ((parseItems p).foldl ConfigSet.apply g.cfg)).LevelsMove k := by
  generalize hitems : parseItems p = items at *
  generalize hcfg : items.foldl ConfigSet.apply g.cfg = c at *
  have hk : (g.changeGeometry c).claims = [] := (g.changeGeometry_same c Guard.claims fun _ _ _ => rfl).trans hc
  obtain ⟨k, ek, mk⟩ := Guard.actionsChanged_unclaimed hk g.cfg .A
  obtain ⟨l, el, ml⟩ := Guard.actionsChanged_unclaimed (mk.claims.trans hk) g.cfg .B
  refine ⟨l, ?_, mk.trans ml⟩
  have applied : g.applyConfig c = l.event := by
    unfold Guard.applyConfig
    dsimp only
    rw [if_neg (by simp [hg]), ek, el]
  have sections : ¬(g.cfg.nc ≠ c.nc ∧ g.noSectionFor c = true) := by
    rintro ⟨h1, h2⟩
    rcases hn with h | h
    · exact h1 h
    · rw [h] at h2
      cases h2
  unfold Guard.serveConfigure
  rw [if_neg (by simp [hm])]
  simp only [hitems, hb, hcfg]
  rw [if_neg (by simp [hc]), if_neg sections, applied, hg]
  rfl

/-- Settles O13: the change of geometry and then levels alone, the event ending with nothing to follow. -/
theorem geometryChangeRewritesMap : Obligations.GeometryChangeRewritesMap := by
  unfold Obligations.GeometryChangeRewritesMap
  intro s tag p hs hm hl hb hw hk items c hg hn
  obtain ⟨k, served, moved⟩ := Guard.serveConfigure_geometry hm hb hk hg hn
  have same : ∀ {α : Type} (f : Guard → α),
      (∀ (k : Guard) (a b : ArmState), f { k with a := a, b := b } = f k) →
      (∀ (k : Guard) (st : CellStore) (sc : ScrubCursor), f { k with store := st, scrub := sc } = f k) →
      f k = f (s.guard.placed c) :=
    fun f h1 h2 => (moved.same f h1).trans (s.guard.changeGeometry_same c f h2)
  have placed : ∀ x, (s.guard.changeGeometry c).arm x =
      { s.guard.arm x with vacate := [], calculator := (s.guard.arm x).calculator.replace c } := fun x =>
    (s.guard.changeGeometry_same c (fun k => k.arm x) fun _ _ _ => rfl).trans (s.guard.placed_arm c x)
  have arm : ∀ {α : Type} (x : Arm) (f : ArmState → α), (∀ (a : ArmState) (u : ActionUnit), f { a with unit := u } = f a) →
      f (k.arm x) = f { s.guard.arm x with vacate := [], calculator := (s.guard.arm x).calculator.replace c } :=
    fun x f blind => (moved.armSame x f blind).trans (congrArg f (placed x))
  refine ⟨_, State.supervisor_quiet hs tag rfl ((Guard.serve_configure s.link hs.1.2 hl).trans served), ⟨[], rfl⟩,
    ?_, ?_, ?_, ?_, ?_, ?_, ?_, ?_, ?_, fun x => ⟨?_, ?_, ?_, ?_, ?_, ?_⟩⟩
  · exact same Guard.cfg (fun _ _ _ => rfl) fun _ _ _ => rfl
  · exact same Guard.fences (fun _ _ _ => rfl) fun _ _ _ => rfl
  · exact (same Guard.claims (fun _ _ _ => rfl) fun _ _ _ => rfl).trans hk
  · exact (same Guard.mode (fun _ _ _ => rfl) fun _ _ _ => rfl).trans hm
  · exact same Guard.now (fun _ _ _ => rfl) fun _ _ _ => rfl
  · exact same Guard.sections (fun _ _ _ => rfl) fun _ _ _ => rfl
  · exact same Guard.poisoned (fun _ _ _ => rfl) fun _ _ _ => rfl
  · exact (moved.same Guard.scrub fun _ _ _ => rfl).trans (s.guard.changeGeometry_scrub c)
  · exact moved.sameTray.mapAgrees (Guard.changeGeometry_mapAgrees c hw)
  · exact arm x ArmState.vacate fun _ _ => rfl
  · exact arm x ArmState.calculator fun _ _ => rfl
  · exact arm x ArmState.intake fun _ _ => rfl
  · exact arm x ArmState.verdict fun _ _ => rfl
  · exact (moved.sources x).trans (congrArg (fun a => a.unit.sources) (placed x))
  · intro i
    cases i
    · exact arm x ArmState.slot0 fun _ _ => rfl
    · exact arm x ArmState.slot1 fun _ _ => rfl

end Sys2Proof.Machine


/-! # The count of findings drawn, and reads that find every entry good

`Guard.reads` counts the findings drawn beyond those foretold. No shared operation lowers it, so when it stands at the end of
an event where it stood at its start, no operation on the way drew beyond what is foretold; with all of that good, each read
draws its finding and does nothing else (`Event.drawn`). -/

namespace Sys2Proof.Machine

/-! ## Operations that draw nothing -/

@[simp] theorem Guard.onUnit_reads (g : Guard) (x : Arm) (f : ActionUnit → ActionUnit) : (g.onUnit x f).reads = g.reads :=
  g.onArm_reads x _

@[simp] theorem Guard.onVacate_reads (g : Guard) (x : Arm) (f : CellSet → CellSet) : (g.onVacate x f).reads = g.reads :=
  g.onArm_reads x _

@[simp] theorem Guard.signal_reads (g : Guard) (x : Arm) (e : CountEvent) (n : Nat) : (g.signal x e n).reads = g.reads :=
  g.onArm_reads x _

@[simp] theorem Guard.changeLevel_reads (g : Guard) (x : Arm) (l : Level) : (g.changeLevel x l).reads = g.reads := by
  simp [Guard.changeLevel, Guard.followLines]

@[simp] theorem Guard.succeed_reads (g : Guard) (c : Claim) : (g.succeed c).reads = g.reads := by
  unfold Guard.succeed
  split <;> rfl

@[simp] theorem Guard.poisonCell_reads (g : Guard) (c : Cell) : (g.poisonCell c).reads = g.reads := by
  simp [Guard.poisonCell]

@[simp] theorem Guard.refit_reads (g : Guard) (k : ClaimKey) (old kept : CellSet) (n : Nat) :
    (g.refit k old kept n).reads = g.reads := by
  simp [Guard.refit]

@[simp] theorem Guard.grant_reads (g : Guard) (c : Claim) : (g.grant c).reads = g.reads := by
  simp [Guard.grant]

@[simp] theorem Guard.reserve_reads (g : Guard) (c : Claim) : (g.reserve c).reads = g.reads := by
  simp [Guard.reserve]

@[simp] theorem Guard.retireSection_reads (g : Guard) (s : Nat) : (g.retireSection s).reads = g.reads := by
  simp [Guard.retireSection]

@[simp] theorem Event.settleEntry_reads (ev : Event) (c : Claim) (o : EntryOutcome) :
    (ev.settleEntry c o).guard.reads = ev.guard.reads := by
  unfold Event.settleEntry
  split <;> simp [Event.tally]

@[simp] theorem Event.leaveWaiting_reads (ev : Event) (c : Claim) (n : ArmNotice) :
    (ev.leaveWaiting c n).guard.reads = ev.guard.reads := by
  simp [Event.leaveWaiting]

/-- A fold of operations that each draw nothing. -/
theorem Event.foldl_reads {α : Type} {f : Event → α → Event} (h : ∀ ev a, (f ev a).guard.reads = ev.guard.reads)
    (as : List α) (ev : Event) : (as.foldl f ev).guard.reads = ev.guard.reads := by
  induction as generalizing ev with
  | nil => rfl
  | cons a as ih => exact (ih (f ev a)).trans (h ev a)

@[simp] theorem Event.withdrawAll_reads (ev : Event) (p : Claim → Bool) :
    (ev.withdrawAll p).guard.reads = ev.guard.reads := by
  refine Event.foldl_reads (fun ev k => ?_) _ ev
  split
  · exact ev.leaveWaiting_reads _ _
  · rfl

@[simp] theorem Event.rise_reads (ev : Event) (s n : Nat) : (ev.rise s n).guard.reads = ev.guard.reads := by
  unfold Event.rise
  split
  · dsimp only
    split <;> rfl
  · rfl

@[simp] theorem Event.poison_reads (ev : Event) (c : Cell) : (ev.poison c).guard.reads = ev.guard.reads :=
  Guard.poisonCell_reads _ c

@[simp] theorem Event.uncorrectable_reads (ev : Event) (c : Cell) :
    (ev.uncorrectable c).guard.reads = ev.guard.reads := by
  unfold Event.uncorrectable
  simp

@[simp] theorem Event.raise_reads (ev : Event) (x : Arm) (src : Source) :
    (ev.raise x src).guard.reads = ev.guard.reads := by
  unfold Event.raise
  split <;> simp

@[simp] theorem Event.computeLevel_reads (ev : Event) (x : Arm) :
    (ev.computeLevel x).guard.reads = ev.guard.reads := by
  unfold Event.computeLevel
  dsimp only
  split
  · rfl
  · split <;> simp

@[simp] theorem Event.latchRevoked_reads (ev : Event) (named : Arm → Bool) :
    (ev.latchRevoked named).guard.reads = ev.guard.reads := by
  have latch : ∀ (e : Event) (x : Arm),
      (if named x && (e.guard.arm x).calculator.zone = .inside then e.raise x .revoked else e).guard.reads =
        e.guard.reads := by
    intro e x
    split <;> simp
  unfold Event.latchRevoked
  rw [Event.postFaults_guard, Event.computeLevel_reads, Event.computeLevel_reads]
  exact (latch _ .B).trans (latch _ .A)

@[simp] theorem Event.endPlan_reads (ev : Event) (x : Arm) (i : SlotIx) :
    (ev.endPlan x i).guard.reads = ev.guard.reads := by
  unfold Event.endPlan
  split
  · split <;> simp
  · rfl

@[simp] theorem Event.endPlans_reads (ev : Event) : ev.endPlans.guard.reads = ev.guard.reads := by
  unfold Event.endPlans
  exact Event.foldl_reads (f := fun ev (j : Arm × SlotIx) => ev.endPlan j.1 j.2) (fun ev j => ev.endPlan_reads j.1 j.2) _
    { ev with judged := [] }

@[simp] theorem Event.endDraining_reads (ev : Event) : ev.endDraining.guard.reads = ev.guard.reads := by
  unfold Event.endDraining
  split <;> rfl

@[simp] theorem Event.letGo_reads (ev : Event) (cells : CellSet) : (ev.letGo cells).guard.reads = ev.guard.reads := by
  simp [Event.letGo]

/-! ## Operations that draw findings -/

theorem Guard.drawFinding_reads (g : Guard) : g.reads ≤ g.drawFinding.2.reads := by
  unfold Guard.drawFinding
  split
  · exact Nat.le_refl _
  · exact Nat.le_succ _

/-- What a read draws is its one finding. -/
theorem Event.readRaw_reads (ev : Event) (who : Reader) (c : Cell) : (ev.readRaw who c).1.guard.reads =
    if c ∈ ev.guard.poisoned then ev.guard.reads else ev.guard.drawFinding.2.reads := by
  unfold Event.readRaw
  split
  · rfl
  · dsimp only
    split
    · rfl
    · simp
    · simp [Event.postRead_guard]
    · simp [Event.postRead_guard]

theorem Event.readRaw_reads_le (ev : Event) (who : Reader) (c : Cell) :
    ev.guard.reads ≤ (ev.readRaw who c).1.guard.reads := by
  rw [Event.readRaw_reads]
  split
  · exact Nat.le_refl _
  · exact ev.guard.drawFinding_reads

theorem Event.formRaw_reads_le (ev : Event) (cells : CellSet) :
    ev.guard.reads ≤ (ev.formRaw cells).1.guard.reads := by
  induction cells generalizing ev with
  | nil => exact Nat.le_refl _
  | cons c cs ih => exact (ev.readRaw_reads_le .arbiter c).trans (ih _)

/-- Beyond the reads that form a claim anew nothing is drawn. -/
theorem Event.reform_reads (ev : Event) {k : ClaimKey} {c : Claim} (h : ev.guard.claim? k = some c) :
    (ev.reform k).guard.reads = (ev.formRaw (c.shape.cells ev.guard.cfg)).1.guard.reads := by
  unfold Event.reform
  rw [h]
  dsimp only
  split
  · split <;> simp [Event.bounce]
  · simp

theorem Event.reform_reads_le (ev : Event) (k : ClaimKey) : ev.guard.reads ≤ (ev.reform k).guard.reads := by
  cases h : ev.guard.claim? k with
  | none => simp [Event.reform, h]
  | some c =>
    rw [ev.reform_reads h]
    exact ev.formRaw_reads_le _

/-- A fold of operations that each draw findings. -/
theorem Event.foldl_reads_le {α : Type} {f : Event → α → Event} (h : ∀ ev a, ev.guard.reads ≤ (f ev a).guard.reads)
    (as : List α) (ev : Event) : ev.guard.reads ≤ (as.foldl f ev).guard.reads := by
  induction as generalizing ev with
  | nil => exact Nat.le_refl _
  | cons a as ih => exact (h ev a).trans (ih _)

theorem Event.settleRounds_reads_le (n : Nat) (ev : Event) : ev.guard.reads ≤ (ev.settleRounds n).guard.reads := by
  induction n generalizing ev with
  | zero => exact Nat.le_refl _
  | succ n ih =>
    unfold Event.settleRounds
    split
    · exact Nat.le_refl _
    · exact (Event.foldl_reads_le Event.reform_reads_le _ { ev with touched := [] }).trans (ih _)

theorem Event.settle_reads_le (ev : Event) : ev.guard.reads ≤ ev.settle.guard.reads := ev.settleRounds_reads_le 769

theorem Event.readCell_reads_le (ev : Event) (who : Reader) (c : Cell) :
    ev.guard.reads ≤ (ev.readCell who c).1.guard.reads :=
  (ev.readRaw_reads_le who c).trans (Event.settle_reads_le _)

theorem Event.readCells_reads_le (ev : Event) (who : Reader) (cells : CellSet) :
    ev.guard.reads ≤ (ev.readCells who cells).1.guard.reads := by
  induction cells generalizing ev with
  | nil => exact Nat.le_refl _
  | cons c cs ih => exact (ev.readCell_reads_le who c).trans (ih _)

theorem Event.rewriteAll_reads_le (ev : Event) (cause : PoisonCause) (cells : CellSet) :
    ev.guard.reads ≤ (ev.rewriteAll cause cells).guard.reads := by
  refine Event.foldl_reads_le (fun ev c => ?_) cells ev
  have rewritten : ev.guard.reads ≤ (ev.rewrite c).1.guard.reads := (ev.guard.reindexCell c).drawFinding_reads
  dsimp only
  split
  · exact rewritten
  · refine rewritten.trans (Nat.le_trans ?_ (Event.settle_reads_le _))
    rw [Event.poison_reads]

theorem Event.testCells_reads_le (ev : Event) (x : Arm) (ok : Bool) (cells : CellSet) :
    ev.guard.reads ≤ (ev.testCells x ok cells).1.guard.reads := by
  induction cells generalizing ev ok with
  | nil => exact Nat.le_refl _
  | cons c cs ih =>
    unfold Event.testCells
    dsimp only
    split
    · exact ev.readCell_reads_le _ _
    · exact (ev.readCell_reads_le _ _).trans (ih _ _)

theorem Event.testClaim_reads_le (n : Nat) (ev : Event) (k : ClaimKey) :
    ev.guard.reads ≤ (ev.testClaim n k).1.guard.reads := by
  induction n generalizing ev with
  | zero => exact Nat.le_refl _
  | succ n ih =>
    unfold Event.testClaim
    split
    · exact Nat.le_refl _
    · rename_i c _
      have tested := ev.testCells_reads_le c.arm true c.effective
      split
      · rename_i e
        rw [e] at tested
        split
        · exact tested
        · exact tested.trans (ih _)
      · rename_i e
        rw [e] at tested
        exact tested.trans (ih _)

/-- Beyond the test of a candidate nothing is drawn. -/
theorem Event.takeCandidate_reads (ev : Event) (k : ClaimKey) :
    (ev.takeCandidate k).guard.reads = (ev.testClaim 769 k).1.guard.reads := by
  unfold Event.takeCandidate
  dsimp only
  split
  · rfl
  · split
    · simp [Event.grant, Event.signal]
    · split <;> simp

theorem Event.takeCandidate_reads_le (ev : Event) (k : ClaimKey) :
    ev.guard.reads ≤ (ev.takeCandidate k).guard.reads := by
  rw [Event.takeCandidate_reads]
  exact ev.testClaim_reads_le 769 k

theorem Event.evaluateRounds_reads_le (n : Nat) (ev : Event) (taken : List ClaimKey) :
    ev.guard.reads ≤ (ev.evaluateRounds n taken).guard.reads := by
  induction n generalizing ev taken with
  | zero => exact Nat.le_refl _
  | succ n ih =>
    unfold Event.evaluateRounds
    split
    · exact Nat.le_refl _
    · exact (Event.takeCandidate_reads_le { ev with reformed := [] } _).trans (ih _ _)

theorem Event.runEvaluation_reads_le (ev : Event) : ev.guard.reads ≤ ev.runEvaluation.guard.reads := by
  unfold Event.runEvaluation
  split
  · exact Nat.le_refl _
  · exact ev.evaluateRounds_reads_le 4000 []

theorem Event.evaluateIfCalled_reads_le (ev : Event) : ev.guard.reads ≤ ev.evaluateIfCalled.guard.reads := by
  unfold Event.evaluateIfCalled
  split
  · exact ev.runEvaluation_reads_le
  · exact Nat.le_refl _

theorem Event.endHeld_reads_le (ev : Event) (k : ClaimKey) (o : EntryOutcome) :
    ev.guard.reads ≤ (ev.endHeld k o).guard.reads := by
  unfold Event.endHeld
  split
  · exact Nat.le_refl _
  · rename_i c _
    dsimp only
    refine (ev.readCells_reads_le .handover (ev.guard.ownCellsOf c)).trans (Nat.le_of_eq ?_)
    split
    · rfl
    · split <;> simp

theorem Event.endClaims_reads_le (ks : List ClaimKey) (ev : Event) :
    ev.guard.reads ≤ (ev.endClaims ks).1.guard.reads := by
  induction ks generalizing ev with
  | nil => exact Nat.le_refl _
  | cons k ks ih =>
    unfold Event.endClaims
    split
    · exact ih ev
    · rename_i c _
      split
      · exact Nat.le_trans (Event.endHeld_reads_le (ev.post (.toArm c.arm (.revoked c.number c.origin))) c.key .missed)
          (ih (ev.revoke c))
      · exact Nat.le_trans (Nat.le_of_eq (ev.leaveWaiting_reads c _).symm) (ih (ev.withdraw c))

theorem Event.retire_reads_le (ev : Event) (s : Nat) : ev.guard.reads ≤ (ev.retire s).guard.reads := by
  unfold Event.retire
  dsimp only
  refine (ev.readCells_reads_le .scrub (ev.guard.sectionCells s)).trans ?_
  refine Nat.le_trans ?_ (Event.runEvaluation_reads_le _)
  rw [Event.onGuard_guard, Guard.restartScrub_reads, Event.post_guard]
  refine Nat.le_trans ?_ (Event.settle_reads_le _)
  dsimp only
  rw [Event.latchRevoked_reads]
  refine Nat.le_trans (Nat.le_of_eq ?_) (Event.endClaims_reads_le _ _)
  simp

theorem Event.flush_reads_le (ev : Event) (s : Nat) : ev.guard.reads ≤ (ev.flush s).guard.reads := by
  unfold Event.flush
  dsimp only
  refine Nat.le_trans ?_ (Event.runEvaluation_reads_le _)
  rw [Event.post_guard]
  refine (Event.endClaims_reads_le (ev.guard.keysWhere fun _ => true) ev).trans ?_
  refine Nat.le_trans ?_ (Nat.le_of_eq (Guard.onSection_reads _ s fun t => { t with errors := 0 }).symm)
  refine Nat.le_trans (Nat.le_of_eq ?_) (Event.rewriteAll_reads_le _ _ _)
  rw [Event.onGuard_guard, Guard.reindex_reads, Event.latchRevoked_reads]

theorem Event.dealWithSections_reads_le (n : Nat) (ev : Event) :
    ev.guard.reads ≤ (ev.dealWithSections n).guard.reads := by
  induction n generalizing ev with
  | zero => exact Nat.le_refl _
  | succ n ih =>
    unfold Event.dealWithSections
    split
    · exact Nat.le_refl _
    · refine Nat.le_trans ?_ (ih _)
      split
      · exact Nat.le_refl _
      · split
        · exact ev.retire_reads_le _
        · exact ev.flush_reads_le _

/-- At the end of an event no less is drawn than where its evaluation ended. -/
theorem Event.finish_reads_le (ev : Event) : ev.evaluateIfCalled.guard.reads ≤ ev.finish.guard.reads := by
  unfold Event.finish
  rw [Event.endDraining_reads, Event.endPlans_reads]
  exact Event.dealWithSections_reads_le 8 ev.evaluateIfCalled.afterReply

/-! ## Reads that find every entry good -/

/-- All that is foretold is good. -/
def Guard.foretoldGood (g : Guard) : Prop := ∀ f ∈ g.findings, f = .good

theorem Guard.foretoldGood.drawn {g : Guard} (h : g.foretoldGood) (n : Nat) : (g.drawn n).foretoldGood :=
  fun f hf => h f (List.mem_of_mem_drop hf)

theorem Guard.foretoldGood.goodFor_one {g : Guard} (h : g.foretoldGood) (hr : g.drawFinding.2.reads = g.reads) :
    g.goodFor 1 := by
  unfold Guard.drawFinding at hr
  split at hr
  · rename_i f rest e
    exact ⟨rest, by rw [e, h f (e ▸ List.mem_cons_self)]; rfl⟩
  · exact absurd hr (Nat.succ_ne_self _)

/-- A read that draws nothing beyond what is foretold, all of it good. -/
theorem Event.readRaw_drawn {ev : Event} (hg : ev.guard.foretoldGood) {who : Reader} {c : Cell}
    (hr : (ev.readRaw who c).1.guard.reads = ev.guard.reads) :
    ev.readRaw who c = (ev.drawn (ev.guard.draws [c]), ev.guard.entryOf c) := by
  refine ev.readRaw_good who c ?_
  rw [Event.readRaw_reads] at hr
  split at hr
  · rename_i hp
    exact ⟨ev.guard.findings, by simp [Guard.draws, hp]⟩
  · rename_i hp
    rw [show ev.guard.draws [c] = 1 by simp [Guard.draws, hp]]
    exact hg.goodFor_one hr

theorem Event.drawn_drawn (ev : Event) (m n : Nat) : (ev.drawn m).drawn n = ev.drawn (m + n) := by
  unfold Event.drawn
  rw [Guard.drawn_drawn]

/-- The cells kept of a set formed anew, when every read finds its entry good. -/
theorem Event.formRaw_drawn {cells : CellSet} {ev : Event} (hg : ev.guard.foretoldGood)
    (hr : (ev.formRaw cells).1.guard.reads = ev.guard.reads) :
    ∃ n, ev.formRaw cells = (ev.drawn n, cells.filter fun c => !(ev.guard.entryOf c).isExcluded) := by
  induction cells generalizing ev with
  | nil => exact ⟨0, rfl⟩
  | cons c cs ih =>
    have first : (ev.readRaw .arbiter c).1.guard.reads = ev.guard.reads :=
      Nat.le_antisymm (hr ▸ Event.formRaw_reads_le _ cs) (ev.readRaw_reads_le _ c)
    have read := Event.readRaw_drawn hg first
    unfold Event.formRaw at hr ⊢
    dsimp only at hr ⊢
    rw [read] at hr ⊢
    obtain ⟨n, e⟩ := ih (ev := ev.drawn (ev.guard.draws [c])) (hg.drawn _) hr
    refine ⟨ev.guard.draws [c] + n, ?_⟩
    rw [e, Event.drawn_drawn]
    refine Prod.ext rfl ?_
    dsimp only
    have same : (ev.drawn (ev.guard.draws [c])).guard.entryOf = ev.guard.entryOf := rfl
    rw [same, List.filter_cons]
    cases (ev.guard.entryOf c).isExcluded <;> rfl

theorem Event.readCell_drawn {ev : Event} (hg : ev.guard.foretoldGood) (ht : ev.touched = []) {who : Reader} {c : Cell}
    (hr : (ev.readCell who c).1.guard.reads = ev.guard.reads) :
    ev.readCell who c = (ev.drawn (ev.guard.draws [c]), ev.guard.entryOf c) := by
  have raw : (ev.readRaw who c).1.guard.reads = ev.guard.reads :=
    Nat.le_antisymm (hr ▸ Event.settle_reads_le _) (ev.readRaw_reads_le _ c)
  unfold Event.readCell
  rw [Event.readRaw_drawn hg raw]
  dsimp only
  rw [Event.settle_untouched (ev := ev.drawn _) ht]

theorem Event.readCells_drawn {cells : CellSet} {ev : Event} (hg : ev.guard.foretoldGood) (ht : ev.touched = [])
    {who : Reader} (hr : (ev.readCells who cells).1.guard.reads = ev.guard.reads) :
    ∃ n, (ev.readCells who cells).1 = ev.drawn n := by
  induction cells generalizing ev with
  | nil => exact ⟨0, rfl⟩
  | cons c cs ih =>
    have first : (ev.readCell who c).1.guard.reads = ev.guard.reads :=
      Nat.le_antisymm (hr ▸ Event.readCells_reads_le _ who cs) (ev.readCell_reads_le who c)
    unfold Event.readCells at hr ⊢
    dsimp only at hr ⊢
    rw [Event.readCell_drawn hg ht first] at hr ⊢
    obtain ⟨n, e⟩ := ih (ev := ev.drawn (ev.guard.draws [c])) (hg.drawn _) ht hr
    exact ⟨_, e.trans (Event.drawn_drawn _ _ _)⟩

theorem Event.testCells_drawn {cells : CellSet} {ev : Event} (hg : ev.guard.foretoldGood) (ht : ev.touched = [])
    {x : Arm} {ok : Bool} (hr : (ev.testCells x ok cells).1.guard.reads = ev.guard.reads) :
    ∃ n, (ev.testCells x ok cells).1 = ev.drawn n := by
  induction cells generalizing ev ok with
  | nil => exact ⟨0, rfl⟩
  | cons c cs ih =>
    have first : (ev.readCell .arbiter c).1.guard.reads = ev.guard.reads := by
      refine Nat.le_antisymm ?_ (ev.readCell_reads_le _ c)
      rw [← hr]
      unfold Event.testCells
      dsimp only
      split
      · exact Nat.le_refl _
      · exact Event.testCells_reads_le _ _ _ _
    unfold Event.testCells at hr ⊢
    dsimp only at hr ⊢
    rw [Event.readCell_drawn hg ht first] at hr ⊢
    split
    · exact ⟨_, rfl⟩
    · rename_i h
      rw [if_neg h] at hr
      obtain ⟨n, e⟩ := ih (ev := ev.drawn (ev.guard.draws [c])) (hg.drawn _) ht hr
      exact ⟨_, e.trans (Event.drawn_drawn _ _ _)⟩

theorem Event.testClaim_drawn (n : Nat) {ev : Event} (hg : ev.guard.foretoldGood) (ht : ev.touched = []) {k : ClaimKey}
    (hr : (ev.testClaim n k).1.guard.reads = ev.guard.reads) : ∃ m, (ev.testClaim n k).1 = ev.drawn m := by
  induction n generalizing ev with
  | zero => exact ⟨0, rfl⟩
  | succ n ih =>
    cases hk : ev.guard.claim? k with
    | none =>
      unfold Event.testClaim
      rw [hk]
      exact ⟨0, rfl⟩
    | some c =>
      have grows := ev.testCells_reads_le c.arm true c.effective
      have test := Event.testCells_drawn (cells := c.effective) (x := c.arm) (ok := true) hg ht
      unfold Event.testClaim at hr ⊢
      rw [hk] at hr ⊢
      dsimp only at hr ⊢
      generalize ev.testCells c.arm true c.effective = r at grows test hr ⊢
      obtain ⟨ev', ok⟩ := r
      have first : ev'.guard.reads = ev.guard.reads → ∃ m, ev' = ev.drawn m := test
      have again : ∀ hr : (ev'.testClaim n k).1.guard.reads = ev.guard.reads,
          ∃ m, (ev'.testClaim n k).1 = ev.drawn m := by
        intro hr
        obtain ⟨m, rfl⟩ := first (Nat.le_antisymm (hr ▸ Event.testClaim_reads_le n ev' k) grows)
        obtain ⟨m', e⟩ := ih (ev := ev.drawn m) (hg.drawn m) ht hr
        exact ⟨_, e.trans (Event.drawn_drawn _ _ _)⟩
      cases ok with
      | none => exact again hr
      | some ok =>
        dsimp only at hr ⊢
        split
        · rename_i h
          rw [if_pos h] at hr
          exact first hr
        · rename_i h
          rw [if_neg h] at hr
          exact again hr

end Sys2Proof.Machine


/-! # Waiting claims formed anew, and the evaluation after it, when every read finds its entry good

`Guard.formed` is the effective set that a shape comes to by the fence layer, the retired sections and the poisoned cells
(R12, R13). `Guard.FormsAnew` says what becomes of each claim when those of some names are formed anew; `Event.Steady` says
what good reads leave of an event. -/

namespace Sys2Proof.Machine

/-! ## The effective set by the records -/

/-- The cells of a shape that no fence leaves out. -/
def Guard.formed (g : Guard) (s : Shape) : CellSet :=
  (s.cells g.cfg).filter fun d => d ∉ g.fences ∧ g.isRetired d.sec = false ∧ d ∉ g.poisoned

theorem Guard.derive_isExcluded {g : Guard} {d : Cell} (h : g.cfg.inGrid d = true) :
    (!(g.derive d).isExcluded) = decide (d ∉ g.fences ∧ g.isRetired d.sec = false ∧ d ∉ g.poisoned) := by
  unfold Guard.derive Entry.isExcluded Guard.fencedByRecord
  rw [if_pos h]
  by_cases hp : d ∈ g.poisoned
  · simp [hp]
  · cases g.ownerOf d <;> cases hr : g.isRetired d.sec <;> by_cases hf : d ∈ g.fences <;> simp [hp, hf]

/-- With the tray in order the entries leave out what the records do. -/
theorem Guard.tidy.formed {g : Guard} (t : g.tidy) (s : Shape) :
    (s.cells g.cfg).filter (fun d => !(g.entryOf d).isExcluded) = g.formed s := by
  refine List.filter_congr fun d hd => ?_
  have hin := Shape.cells_inGrid hd
  rw [t.agrees d (t.inStore hin), Guard.derive_isExcluded hin]

theorem Guard.formed_congr {g h : Guard} (c : Guard.Change g h) (e : h.frame = g.frame) (p : h.poisoned = g.poisoned) :
    h.formed = g.formed := by
  funext s
  unfold Guard.formed
  rw [c.cfg, c.fences, p, Guard.isRetired_of_grid (Guard.grid_of_frame e)]

/-! ## What becomes of a claim -/

/-- A claim that stays as it is but for its phase, its reservations and its timers: it reserves no cell but of its effective
set besides what it reserved. -/
structure Claim.Stays (c d : Claim) : Prop where
  keeps : c.keeps d
  effective : d.effective = c.effective
  excluded : d.excluded = c.excluded
  reserved : ∀ e ∈ d.reserved, e ∈ c.reserved ∨ e ∈ c.effective

theorem Claim.Stays.refl (c : Claim) : c.Stays c := ⟨c.keeps_refl, rfl, rfl, fun _ h => .inl h⟩

theorem Claim.Stays.trans {b c d : Claim} (h : b.Stays c) (k : c.Stays d) : b.Stays d := by
  refine ⟨Claim.keeps_trans h.keeps k.keeps, k.effective.trans h.effective, k.excluded.trans h.excluded, fun e he => ?_⟩
  rcases k.reserved e he with hr | hs
  · exact h.reserved e hr
  · exact .inr (h.effective ▸ hs)

/-- A claim formed anew with the effective set `kept` of its `n` cells. -/
structure Claim.FormedAs (kept : CellSet) (n : Nat) (c d : Claim) : Prop where
  keeps : c.keeps d
  effective : d.effective = kept
  excluded : d.excluded = n - kept.length
  reserved : ∀ e ∈ d.reserved, e ∈ kept

theorem Claim.FormedAs.then_stays {kept : CellSet} {n : Nat} {b c d : Claim} (h : b.FormedAs kept n c) (k : c.Stays d) :
    b.FormedAs kept n d := by
  refine ⟨Claim.keeps_trans h.keeps k.keeps, k.effective.trans h.effective, k.excluded.trans h.excluded, fun e he => ?_⟩
  rcases k.reserved e he with hr | hs
  · exact h.reserved e hr
  · exact h.effective ▸ hs

theorem Claim.Stays.then_formedAs {kept : CellSet} {n : Nat} {b c d : Claim} (h : b.Stays c) (k : c.FormedAs kept n d) :
    b.FormedAs kept n d := ⟨Claim.keeps_trans h.keeps k.keeps, k.effective, k.excluded, k.reserved⟩

theorem Claim.keeps.key {c d : Claim} (h : c.keeps d) : d.key = c.key := h.1

theorem Claim.keeps.shape {c d : Claim} (h : c.keeps d) : d.shape = c.shape := h.2.2.1

theorem Claim.keeps.held {c d : Claim} (h : c.keeps d) : c.phase = .held → d.phase = .held := h.2.2.2.2.2.2

/-- Every claim stays but those of the names given: these are formed anew by the records of `g`, and leave when nothing is
left of them. -/
structure Guard.FormsAnew (ks : List ClaimKey) (g h : Guard) : Prop where
  stays : ∀ c ∈ g.claims, c.key ∉ ks → ∃ d ∈ h.claims, c.Stays d
  anew : ∀ c ∈ g.claims, c.key ∈ ks → g.formed c.shape ≠ [] →
    ∃ d ∈ h.claims, c.FormedAs (g.formed c.shape) (c.shape.cells g.cfg).length d
  gone : ∀ c ∈ g.claims, c.key ∈ ks → g.formed c.shape = [] → ∀ d ∈ h.claims, d.key ≠ c.key

theorem Guard.FormsAnew.of_stays {g h : Guard} (s : ∀ c ∈ g.claims, ∃ d ∈ h.claims, c.Stays d) :
    Guard.FormsAnew [] g h :=
  ⟨fun c hc _ => s c hc, fun _ _ h => absurd h List.not_mem_nil, fun _ _ h => absurd h List.not_mem_nil⟩

theorem Guard.FormsAnew.refl (g : Guard) : Guard.FormsAnew [] g g := .of_stays fun c hc => ⟨c, hc, .refl c⟩

/-- One name's claim formed anew and then those of other names. -/
theorem Guard.FormsAnew.append {g h k : Guard} {ks ls : List ClaimKey} (a : Guard.FormsAnew ks g h)
    (b : Guard.FormsAnew ls h k) (formed : h.formed = g.formed) (c : Guard.Change g h) (c' : Guard.Change h k)
    (apart : ∀ j ∈ ks, j ∉ ls) : Guard.FormsAnew (ks ++ ls) g k := by
  refine ⟨fun e he hn => ?_, fun e he hm hf => ?_, fun e he hm hf d hd => ?_⟩
  · obtain ⟨hk, hl⟩ := not_or.1 (List.mem_append.not.1 hn)
    obtain ⟨d, hd, sd⟩ := a.stays e he hk
    obtain ⟨f, hf, sf⟩ := b.stays d hd (sd.keeps.key ▸ hl)
    exact ⟨f, hf, sd.trans sf⟩
  · by_cases hk : e.key ∈ ks
    · obtain ⟨d, hd, fd⟩ := a.anew e he hk hf
      obtain ⟨f, hf, sf⟩ := b.stays d hd (fd.keeps.key ▸ apart _ hk)
      exact ⟨f, hf, fd.then_stays sf⟩
    · have hl := (List.mem_append.1 hm).resolve_left hk
      obtain ⟨d, hd, sd⟩ := a.stays e he hk
      have anew := b.anew d hd (sd.keeps.key ▸ hl)
      rw [formed, c.cfg, sd.keeps.shape] at anew
      obtain ⟨f, hf, ff⟩ := anew hf
      exact ⟨f, hf, sd.then_formedAs ff⟩
  · by_cases hk : e.key ∈ ks
    · obtain ⟨b', hb, kb⟩ := c'.claim d hd
      rw [kb.key]
      exact a.gone e he hk hf b' hb
    · have hl := (List.mem_append.1 hm).resolve_left hk
      obtain ⟨b', hb, sb⟩ := a.stays e he hk
      have gone := b.gone b' hb (sb.keeps.key ▸ hl)
      rw [formed, sb.keeps.shape, sb.keeps.key] at gone
      exact gone hf d hd

/-! ## Claims beside the one that changes -/

theorem Guard.promote_stays (g : Guard) (x : Arm) {c : Claim} (hc : c ∈ g.claims) : ∃ d ∈ (g.promote x).claims, c.Stays d := by
  refine ⟨_, List.mem_map_of_mem hc, ?_⟩
  split
  · exact ⟨⟨rfl, rfl, rfl, rfl, rfl, rfl, id⟩, rfl, rfl, fun _ h => .inl h⟩
  · exact .refl c

theorem Guard.succeed_stays (g : Guard) (b : Claim) {c : Claim} (hc : c ∈ g.claims) :
    ∃ d ∈ (g.succeed b).claims, c.Stays d := by
  unfold Guard.succeed
  split
  · exact g.promote_stays _ hc
  · exact ⟨c, hc, .refl c⟩

@[simp] theorem Event.settleEntry_claims (ev : Event) (c : Claim) (o : EntryOutcome) :
    (ev.settleEntry c o).guard.claims = ev.guard.claims := by
  unfold Event.settleEntry
  split
  · rfl
  · simp [Event.tally, Guard.signal]

@[simp] theorem Event.leaveWaiting_claims (ev : Event) (c : Claim) (n : ArmNotice) :
    (ev.leaveWaiting c n).guard.claims = ((ev.guard.removeClaim c.key).succeed c).claims := by
  simp [Event.leaveWaiting, Event.callEvaluation]

theorem Event.leaveWaiting_stays (ev : Event) {b c : Claim} (n : ArmNotice) (hc : c ∈ ev.guard.claims)
    (hne : c.key ≠ b.key) : ∃ d ∈ (ev.leaveWaiting b n).guard.claims, c.Stays d := by
  rw [Event.leaveWaiting_claims]
  exact Guard.succeed_stays _ b (List.mem_filter.2 ⟨hc, by simpa using hne⟩)

theorem Event.leaveWaiting_gone (ev : Event) (b : Claim) (n : ArmNotice) :
    ∀ d ∈ (ev.leaveWaiting b n).guard.claims, d.key ≠ b.key := by
  intro d hd
  rw [Event.leaveWaiting_claims] at hd
  obtain ⟨e, he, ke⟩ := (Guard.Change.succeed (ev.guard.removeClaim b.key) b).claim d hd
  rw [ke.key]
  simpa using (List.mem_filter.1 he).2

theorem Guard.onClaim_mem {g : Guard} {k : ClaimKey} {f : Claim → Claim} {c : Claim} (hc : c ∈ g.claims)
    (e : c.key = k) : f c ∈ (g.onClaim k f).claims :=
  List.mem_map.2 ⟨c, hc, if_pos e⟩

theorem Guard.onClaim_mem_other {g : Guard} {k : ClaimKey} {f : Claim → Claim} {c : Claim} (hc : c ∈ g.claims)
    (e : c.key ≠ k) : c ∈ (g.onClaim k f).claims :=
  List.mem_map.2 ⟨c, hc, if_neg e⟩

/-! ## What good reads leave of an event -/

/-- The second event has its reads still good, no cell poisoned, and nothing that calls for work in passing. -/
structure Event.Steady (ev ev' : Event) : Prop where
  good : ev'.guard.foretoldGood
  poisoned : ev'.guard.poisoned = ev.guard.poisoned
  touched : ev'.touched = ev.touched
  reached : ev'.reached = ev.reached
  late : ev'.late = ev.late

theorem Event.Steady.refl {ev : Event} (h : ev.guard.foretoldGood) : ev.Steady ev := ⟨h, rfl, rfl, rfl, rfl⟩

theorem Event.Steady.trans {a b c : Event} (h : a.Steady b) (k : b.Steady c) : a.Steady c :=
  ⟨k.good, k.poisoned.trans h.poisoned, k.touched.trans h.touched, k.reached.trans h.reached, k.late.trans h.late⟩

@[simp] theorem Guard.succeed_poisoned (g : Guard) (c : Claim) : (g.succeed c).poisoned = g.poisoned := by
  unfold Guard.succeed
  split <;> rfl

@[simp] theorem Guard.succeed_findings (g : Guard) (c : Claim) : (g.succeed c).findings = g.findings := by
  unfold Guard.succeed
  split <;> rfl

theorem Event.tally_steady {ev : Event} (h : ev.guard.foretoldGood) (x : Arm) (i : SlotIx) (o : EntryOutcome) :
    ev.Steady (ev.tally x i o) := by
  have findings : (ev.tally x i o).guard.findings = ev.guard.findings := by simp [Event.tally, Event.signal, Guard.signal]
  refine ⟨?_, ?_, rfl, rfl, rfl⟩
  · rw [Guard.foretoldGood, findings]
    exact h
  · simp [Event.tally, Event.signal, Guard.signal]

theorem Event.settleEntry_steady {ev : Event} (h : ev.guard.foretoldGood) (c : Claim) (o : EntryOutcome) :
    ev.Steady (ev.settleEntry c o) := by
  unfold Event.settleEntry
  split
  · exact .refl h
  · rename_i i _ _
    obtain ⟨good, poisoned, touched, reached, late⟩ := Event.tally_steady h c.arm i o
    exact ⟨good, poisoned, touched, reached, late⟩

theorem Event.leaveWaiting_steady {ev : Event} (h : ev.guard.foretoldGood) (c : Claim) (n : ArmNotice) :
    ev.Steady (ev.leaveWaiting c n) := by
  have left : ev.Steady ((ev.onGuard fun g => ((g.removeClaim c.key).succeed c).reindex c.reserved).post (.toArm c.arm n)) := by
    refine ⟨?_, ?_, rfl, rfl, rfl⟩
    · simpa [Guard.foretoldGood] using h
    · simp
  obtain ⟨good, poisoned, touched, reached, late⟩ := left.trans (Event.settleEntry_steady left.good c .missed)
  exact ⟨good, poisoned, touched, reached, late⟩

/-! ## One claim formed anew -/

/-- An event with a claim formed anew by the records, `n` findings drawn. -/
def Event.refitted (ev : Event) (c : Claim) (n : Nat) : Event :=
  { ((ev.drawn n).onGuard fun g =>
      g.refit c.key c.reserved (ev.guard.formed c.shape) (c.shape.cells ev.guard.cfg).length) with
    evaluate := true, reformed := ev.reformed ++ [c.key] }

theorem Event.refitted_claims (ev : Event) (c : Claim) (n : Nat) : (ev.refitted c n).guard.claims =
    (ev.guard.onClaim c.key (Claim.refitted (ev.guard.formed c.shape) (c.shape.cells ev.guard.cfg).length)).claims := by
  unfold Event.refitted
  dsimp only
  rw [Event.onGuard_guard, Guard.refit_eq, Guard.reindex_claims]
  rfl

theorem Event.refitted_steady {ev : Event} (h : ev.guard.foretoldGood) (c : Claim) (n : Nat) :
    ev.Steady (ev.refitted c n) := by
  have findings : (ev.refitted c n).guard.findings = (ev.guard.drawn n).findings := by
    simp [Event.refitted, Guard.refit, Event.drawn]
  refine ⟨?_, ?_, rfl, rfl, rfl⟩
  · rw [Guard.foretoldGood, findings]
    exact h.drawn n
  · simp [Event.refitted, Guard.refit, Event.drawn, Guard.drawn]

section
variable {ev : Event} (t : ev.guard.tidy) (hg : ev.guard.foretoldGood) {c : Claim} (hc : c ∈ ev.guard.claims)
  (hr : (ev.reform c.key).guard.reads = ev.guard.reads)
include t hg hc hr

/-- What forming a claim anew comes to: its record is formed by the records, and it is bounced when nothing is left. -/
theorem Event.reform_good : ∃ n, ev.reform c.key =
    if ev.guard.formed c.shape = [] then
      (ev.refitted c n).bounce (c.refitted [] (c.shape.cells ev.guard.cfg).length) .empty
    else ev.refitted c n := by
  have found := t.keysDiffer.claim? hc
  have reads := Event.reform_reads ev found
  obtain ⟨n, formed⟩ := Event.formRaw_drawn hg (reads ▸ hr)
  rw [t.formed] at formed
  refine ⟨n, ?_⟩
  have kept : (ev.refitted c n).guard.claim? c.key =
      some (c.refitted (ev.guard.formed c.shape) (c.shape.cells ev.guard.cfg).length) := by
    have differ : (ev.refitted c n).guard.keysDiffer := by
      have keys := Guard.keys_onClaim ev.guard c.key
        (Claim.refitted_keeps (ev.guard.formed c.shape) (c.shape.cells ev.guard.cfg).length)
      rw [Guard.keys] at keys
      rw [Guard.keysDiffer, Guard.keys, Event.refitted_claims, keys]
      exact t.keysDiffer
    refine differ.claim? (c := c.refitted _ _) ?_
    rw [Event.refitted_claims]
    exact Guard.onClaim_mem hc rfl
  unfold Event.reform
  rw [found]
  dsimp only
  rw [formed]
  change (match (ev.refitted c n).guard.claim? c.key with
    | some d => if (ev.guard.formed c.shape).isEmpty then (ev.refitted c n).bounce d .empty else ev.refitted c n
    | none => ev.refitted c n) = _
  rw [kept]
  by_cases e : ev.guard.formed c.shape = []
  · simp [e]
  · simp [e]

theorem Event.reform_steady_of_mem : ev.Steady (ev.reform c.key) := by
  obtain ⟨n, e⟩ := Event.reform_good t hg hc hr
  have refitted := Event.refitted_steady hg c n
  rw [e]
  split
  · exact refitted.trans (Event.leaveWaiting_steady refitted.good _ _)
  · exact refitted

theorem Event.reform_formsAnew_of_mem : Guard.FormsAnew [c.key] ev.guard (ev.reform c.key).guard := by
  obtain ⟨n, e⟩ := Event.reform_good t hg hc hr
  have only : ∀ d ∈ ev.guard.claims, d.key ∈ [c.key] → d = c := fun d hd hk =>
    t.keysDiffer.eq hd hc (by simpa using hk)
  have other : ∀ d ∈ ev.guard.claims, d.key ∉ [c.key] → d ∈ (ev.refitted c n).guard.claims := fun d hd hk => by
    rw [Event.refitted_claims]
    exact Guard.onClaim_mem_other hd (by simpa using hk)
  rw [e]
  split
  · rename_i none
    refine ⟨fun d hd hk => ?_, fun d hd hk hf => ?_, fun d hd hk _ => ?_⟩
    · exact Event.leaveWaiting_stays _ _ (other d hd hk) (by simpa [Claim.refitted, Claim.key] using hk)
    · rw [only d hd hk] at hf
      exact absurd none hf
    · rw [only d hd hk]
      exact Event.leaveWaiting_gone _ (c.refitted [] _) _
  · rename_i some
    refine ⟨fun d hd hk => ⟨d, other d hd hk, .refl d⟩, fun d hd hk _ => ?_, fun d hd hk hf => ?_⟩
    · rw [only d hd hk]
      refine ⟨_, (Event.refitted_claims ev c n) ▸ Guard.onClaim_mem hc rfl, Claim.refitted_keeps _ _ c, rfl, rfl,
        fun e he => ?_⟩
      exact of_decide_eq_true (List.mem_filter.1 he).2
    · rw [only d hd hk] at hf
      exact absurd hf some

end

/-- A name without a claim is passed over. -/
theorem Event.reform_absent {ev : Event} {k : ClaimKey} (h : ∀ c ∈ ev.guard.claims, c.key ≠ k) : ev.reform k = ev := by
  have none : ev.guard.claim? k = none := List.find?_eq_none.2 fun c hc => by simpa using h c hc
  unfold Event.reform
  rw [none]

section
variable {ev : Event} (t : ev.guard.tidy) (hg : ev.guard.foretoldGood) {k : ClaimKey}
  (hr : (ev.reform k).guard.reads = ev.guard.reads)
include t hg hr

theorem Event.reform_steady : ev.Steady (ev.reform k) := by
  by_cases h : ∃ c ∈ ev.guard.claims, c.key = k
  · obtain ⟨c, hc, rfl⟩ := h
    exact Event.reform_steady_of_mem t hg hc hr
  · rw [Event.reform_absent fun c hc e => h ⟨c, hc, e⟩]
    exact .refl hg

theorem Event.reform_formsAnew : Guard.FormsAnew [k] ev.guard (ev.reform k).guard := by
  by_cases h : ∃ c ∈ ev.guard.claims, c.key = k
  · obtain ⟨c, hc, rfl⟩ := h
    exact Event.reform_formsAnew_of_mem t hg hc hr
  · have absent : ∀ c ∈ ev.guard.claims, c.key ≠ k := fun c hc e => h ⟨c, hc, e⟩
    rw [Event.reform_absent absent]
    exact ⟨fun c hc _ => ⟨c, hc, .refl c⟩, fun c hc hk => absurd (List.mem_singleton.1 hk) (absent c hc),
      fun c hc hk => absurd (List.mem_singleton.1 hk) (absent c hc)⟩

end

/-! ## All that a change of fences touches, formed anew -/

/-- Some waiting claims formed anew, one after the other. -/
theorem Event.reformAll_good (ks : List ClaimKey) {ev : Event} (t : ev.guard.tidy) (hg : ev.guard.foretoldGood)
    (w : ∀ k ∈ ks, ev.guard.waits k) (nodup : ks.Nodup)
    (hr : (ks.foldl Event.reform ev).guard.reads = ev.guard.reads) :
    ev.Steady (ks.foldl Event.reform ev) ∧ Guard.FormsAnew ks ev.guard (ks.foldl Event.reform ev).guard := by
  induction ks generalizing ev with
  | nil => exact ⟨.refl hg, .refl _⟩
  | cons k ks ih =>
    rw [List.foldl_cons] at hr ⊢
    obtain ⟨hk, nodup⟩ := List.nodup_cons.1 nodup
    have wk := w k List.mem_cons_self
    have eased := Event.reform_eases t wk
    have first : (ev.reform k).guard.reads = ev.guard.reads :=
      Nat.le_antisymm (hr ▸ Event.foldl_reads_le Event.reform_reads_le ks _) (ev.reform_reads_le k)
    have steady := Event.reform_steady t hg first
    obtain ⟨steady', forms'⟩ := ih eased.tidy steady.good
      (fun j hj => eased.shrinks.waits (w j (List.mem_cons_of_mem _ hj))) nodup (hr.trans first.symm)
    refine ⟨steady.trans steady', (Event.reform_formsAnew t hg first).append forms' ?_ (ev.reform_change k)
      (Event.foldl_change Event.reform Event.reform_change ks _) fun j hj => ?_⟩
    · exact Guard.formed_congr (ev.reform_change k) (ev.reform_frame k) steady.poisoned
    · rwa [List.mem_singleton.1 hj]

/-- The names of the waiting claims that have a touched cell. -/
def Event.touchedKeys (ev : Event) : List ClaimKey :=
  ev.guard.keysWhere fun c => c.isWaiting && meets (c.shape.cells ev.guard.cfg) ev.touched

theorem Event.mem_touchedKeys {ev : Event} {k : ClaimKey} : k ∈ ev.touchedKeys ↔
    ∃ c ∈ ev.guard.claims, c.phase = .waiting ∧ (∃ d ∈ c.shape.cells ev.guard.cfg, d ∈ ev.touched) ∧ c.key = k := by
  unfold Event.touchedKeys
  rw [Guard.mem_keysWhere]
  simp [meets, Claim.isWaiting, and_assoc]

theorem Event.touchedKeys_nodup {ev : Event} (t : ev.guard.tidy) : ev.touchedKeys.Nodup :=
  t.keysDiffer.sublist (List.Sublist.map _ List.filter_sublist)

theorem Event.waits_touchedKeys {ev : Event} (t : ev.guard.tidy) : ∀ k ∈ ev.touchedKeys, ev.guard.waits k := by
  intro k hk
  obtain ⟨c, hc, hw, -, rfl⟩ := Event.mem_touchedKeys.1 hk
  exact t.waits hc hw

theorem Event.settleRounds_untouched (n : Nat) {ev : Event} (h : ev.touched = []) : ev.settleRounds n = ev := by
  cases n <;> simp [Event.settleRounds, h]

theorem Event.settleRounds_touched (n : Nat) {ev : Event} (h : ev.touched ≠ []) : ev.settleRounds (n + 1) =
    (ev.touchedKeys.foldl Event.reform { ev with touched := [] }).settleRounds n := by
  rw [Event.settleRounds, if_neg (by simpa using h)]
  rfl

theorem Event.settle_eq_rounds (ev : Event) : ev.settle = ev.settleRounds (768 + 1) := rfl

section
variable {ev : Event} (t : ev.guard.tidy) (hg : ev.guard.foretoldGood) (hr : ev.settle.guard.reads = ev.guard.reads)
include t hg hr

/-- With good reads no cell is touched anew, so that one round forms every claim. -/
theorem Event.settle_good : ev.settle = ev.touchedKeys.foldl Event.reform { ev with touched := [] } := by
  by_cases h : ev.touched = []
  · have none : ev.touchedKeys = [] := List.eq_nil_iff_forall_not_mem.2 fun k hk => by
      obtain ⟨-, -, -, ⟨d, -, hd⟩, -⟩ := Event.mem_touchedKeys.1 hk
      rw [h] at hd
      cases hd
    rw [Event.settle_untouched h, none, List.foldl_nil, ← h]
  · rw [Event.settle_eq_rounds, Event.settleRounds_touched 768 h] at hr ⊢
    have first : (ev.touchedKeys.foldl Event.reform { ev with touched := [] }).guard.reads = ev.guard.reads :=
      Nat.le_antisymm (hr ▸ Event.settleRounds_reads_le 768 _)
        (Event.foldl_reads_le Event.reform_reads_le _ { ev with touched := [] })
    obtain ⟨steady, -⟩ := Event.reformAll_good ev.touchedKeys (ev := { ev with touched := [] }) t hg
      (Event.waits_touchedKeys t) (Event.touchedKeys_nodup t) first
    exact Event.settleRounds_untouched 768 steady.touched

theorem Event.settle_formsAnew : Event.Steady { ev with touched := [] } ev.settle ∧
    Guard.FormsAnew ev.touchedKeys ev.guard ev.settle.guard := by
  have e := Event.settle_good t hg hr
  rw [e] at hr ⊢
  exact Event.reformAll_good ev.touchedKeys (ev := { ev with touched := [] }) t hg
    (Event.waits_touchedKeys t) (Event.touchedKeys_nodup t) hr

end

/-! ## The evaluation and the end of the event -/

theorem Guard.grant_stays (g : Guard) (b : Claim) : ∀ c ∈ g.claims, ∃ d ∈ (g.grant b).claims, c.Stays d := by
  intro c hc
  have granted : ∃ d ∈ (g.onClaim b.key Claim.granted).claims, c.Stays d := by
    by_cases e : c.key = b.key
    · exact ⟨_, Guard.onClaim_mem hc e, c.granted_keeps, rfl, rfl, fun e he => by cases he⟩
    · exact ⟨c, Guard.onClaim_mem_other hc e, .refl c⟩
  obtain ⟨d, hd, sd⟩ := granted
  obtain ⟨f, hf, sf⟩ := Guard.succeed_stays ((g.onClaim b.key Claim.granted).onVacate b.arm fun v => minusCells v b.effective)
    b (c := d) (by rw [Guard.onVacate, Guard.onArm_claims]; exact hd)
  refine ⟨f, ?_, sd.trans sf⟩
  unfold Guard.grant
  rw [Guard.reindex_claims]
  exact hf

theorem Guard.reserve_stays {g : Guard} (hk : g.keysDiffer) {b : Claim} (hb : b ∈ g.claims) :
    ∀ c ∈ g.claims, ∃ d ∈ (g.reserve b).claims, c.Stays d := by
  intro c hc
  unfold Guard.reserve
  dsimp only
  rw [Guard.reindex_claims]
  by_cases e : c.key = b.key
  · obtain rfl := hk.eq hc hb e
    refine ⟨_, Guard.onClaim_mem hc rfl, ⟨rfl, rfl, rfl, rfl, rfl, rfl, id⟩, rfl, rfl, fun d hd => ?_⟩
    rcases mem_unionCells.1 hd with h | h
    · exact .inl h
    · exact .inr (mem_minusCells.1 h).1
  · exact ⟨c, Guard.onClaim_mem_other hc e, .refl c⟩

@[simp] theorem Guard.grant_poisoned (g : Guard) (c : Claim) : (g.grant c).poisoned = g.poisoned := by
  simp [Guard.grant, Guard.onVacate]

@[simp] theorem Guard.grant_findings (g : Guard) (c : Claim) : (g.grant c).findings = g.findings := by
  simp [Guard.grant, Guard.onVacate]

/-- What an evaluation with good reads leaves: a steady event, every claim of the table staying. -/
structure Event.Evaluates (ev ev' : Event) : Prop where
  steady : ev.Steady ev'
  stays : ∀ c ∈ ev.guard.claims, ∃ d ∈ ev'.guard.claims, c.Stays d

theorem Event.Evaluates.refl {ev : Event} (h : ev.guard.foretoldGood) : ev.Evaluates ev :=
  ⟨.refl h, fun c hc => ⟨c, hc, .refl c⟩⟩

theorem Event.Evaluates.trans {a b c : Event} (h : a.Evaluates b) (k : b.Evaluates c) : a.Evaluates c := by
  refine ⟨h.steady.trans k.steady, fun e he => ?_⟩
  obtain ⟨d, hd, sd⟩ := h.stays e he
  obtain ⟨f, hf, sf⟩ := k.stays d hd
  exact ⟨f, hf, sd.trans sf⟩

theorem Event.drawn_evaluates {ev : Event} (h : ev.guard.foretoldGood) (n : Nat) : ev.Evaluates (ev.drawn n) :=
  ⟨⟨h.drawn n, rfl, rfl, rfl, rfl⟩, fun c hc => ⟨c, hc, .refl c⟩⟩

theorem Event.grant_evaluates {ev : Event} (h : ev.guard.foretoldGood) (b : Claim) : ev.Evaluates (ev.grant b) := by
  have findings : (ev.grant b).guard.findings = ev.guard.findings := by simp [Event.grant, Event.signal, Guard.signal]
  have claims : (ev.grant b).guard.claims = (ev.guard.grant b).claims := by simp [Event.grant, Event.signal, Guard.signal]
  refine ⟨⟨?_, ?_, rfl, rfl, rfl⟩, ?_⟩
  · rw [Guard.foretoldGood, findings]
    exact h
  · simp [Event.grant, Event.signal, Guard.signal]
  · rw [claims]
    exact ev.guard.grant_stays b

theorem Event.reserve_evaluates {ev : Event} (h : ev.guard.foretoldGood) (hk : ev.guard.keysDiffer) {b : Claim}
    (hb : b ∈ ev.guard.claims) : ev.Evaluates (ev.onGuard fun g => g.reserve b) := by
  refine ⟨⟨?_, ?_, rfl, rfl, rfl⟩, Guard.reserve_stays hk hb⟩
  · simpa [Guard.foretoldGood, Guard.reserve] using h
  · simp [Guard.reserve]

theorem Guard.Change.keysDiffer {g h : Guard} (c : Guard.Change g h) (hk : g.keysDiffer) : h.keysDiffer :=
  hk.sublist c.keys

theorem Event.takeCandidate_evaluates {ev : Event} (hg : ev.guard.foretoldGood) (ht : ev.touched = [])
    (hk : ev.guard.keysDiffer) {k : ClaimKey} (hr : (ev.takeCandidate k).guard.reads = ev.guard.reads) :
    ev.Evaluates (ev.takeCandidate k) := by
  rw [Event.takeCandidate_reads] at hr
  obtain ⟨n, e⟩ := Event.testClaim_drawn 769 hg ht hr
  have tested := Event.drawn_evaluates hg n
  unfold Event.takeCandidate
  dsimp only
  rw [e]
  split
  · exact tested
  · rename_i c found
    split
    · exact tested.trans (Event.grant_evaluates tested.steady.good c)
    · split
      · exact tested.trans (Event.reserve_evaluates tested.steady.good hk (Guard.claim?_some found).1)
      · exact tested

theorem Event.evaluateRounds_evaluates (n : Nat) {ev : Event} (hg : ev.guard.foretoldGood) (ht : ev.touched = [])
    (hk : ev.guard.keysDiffer) {taken : List ClaimKey} (hr : (ev.evaluateRounds n taken).guard.reads = ev.guard.reads) :
    ev.Evaluates (ev.evaluateRounds n taken) := by
  induction n generalizing ev taken with
  | zero => exact .refl hg
  | succ n ih =>
    unfold Event.evaluateRounds at hr ⊢
    split
    · exact .refl hg
    · rename_i c found
      rw [found] at hr
      dsimp only at hr ⊢
      have start : ev.Evaluates { ev with reformed := [] } := ⟨⟨hg, rfl, rfl, rfl, rfl⟩, fun c hc => ⟨c, hc, .refl c⟩⟩
      have first := Nat.le_antisymm (hr ▸ Event.evaluateRounds_reads_le n _ _)
        (Event.takeCandidate_reads_le { ev with reformed := [] } c.key)
      have taken := Event.takeCandidate_evaluates (ev := { ev with reformed := [] }) hg ht hk first
      refine (start.trans taken).trans (ih taken.steady.good (taken.steady.touched.trans ht) ?_ (hr.trans first.symm))
      exact (Event.takeCandidate_change { ev with reformed := [] } c.key).keysDiffer hk

theorem Event.evaluateIfCalled_evaluates {ev : Event} (hg : ev.guard.foretoldGood) (ht : ev.touched = [])
    (hk : ev.guard.keysDiffer) (hr : ev.evaluateIfCalled.guard.reads = ev.guard.reads) :
    ev.Evaluates ev.evaluateIfCalled := by
  unfold Event.evaluateIfCalled Event.runEvaluation at hr ⊢
  split
  · rename_i called
    rw [if_pos called] at hr
    split
    · exact ⟨⟨hg, rfl, rfl, rfl, rfl⟩, fun c hc => ⟨c, hc, .refl c⟩⟩
    · rename_i mode
      rw [if_neg mode] at hr
      obtain ⟨⟨good, poisoned, touched, reached, late⟩, stays⟩ := Event.evaluateRounds_evaluates 4000 hg ht hk hr
      exact ⟨⟨good, poisoned, touched, reached, late⟩, stays⟩
  · exact .refl hg

@[simp] theorem Event.endPlan_claims (ev : Event) (x : Arm) (i : SlotIx) :
    (ev.endPlan x i).guard.claims = ev.guard.claims := by
  unfold Event.endPlan
  split
  · split <;> simp
  · rfl

@[simp] theorem Event.endPlans_claims (ev : Event) : ev.endPlans.guard.claims = ev.guard.claims := by
  have fold : ∀ (js : List (Arm × SlotIx)) (ev : Event),
      (js.foldl (fun ev j => ev.endPlan j.1 j.2) ev).guard.claims = ev.guard.claims := by
    intro js
    induction js with
    | nil => exact fun _ => rfl
    | cons j js ih =>
      exact fun ev => (ih _).trans (ev.endPlan_claims j.1 j.2)
  unfold Event.endPlans
  exact fold _ _

@[simp] theorem Event.endDraining_claims (ev : Event) : ev.endDraining.guard.claims = ev.guard.claims := by
  unfold Event.endDraining
  split <;> rfl

/-- An event whose reads are all good, to its end: every claim left before its evaluation stays. -/
theorem Event.finish_stays {ev : Event} (hg : ev.guard.foretoldGood) (ht : ev.touched = []) (hq : ev.reached = [])
    (hk : ev.guard.keysDiffer) (hr : ev.finish.guard.reads = ev.guard.reads) :
    ∀ c ∈ ev.guard.claims, ∃ d ∈ ev.finish.guard.claims, c.Stays d := by
  have reads : ev.evaluateIfCalled.guard.reads = ev.guard.reads :=
    Nat.le_antisymm (hr ▸ ev.finish_reads_le) ev.evaluateIfCalled_reads_le
  obtain ⟨steady, stays⟩ := Event.evaluateIfCalled_evaluates hg ht hk reads
  have none : ev.evaluateIfCalled.afterReply.reached = [] := steady.reached.trans hq
  unfold Event.finish
  rw [Event.dealWithSections_none 8 none, Event.endDraining_claims, Event.endPlans_claims]
  exact stays

/-! ## The end of an event with nothing left to wait or to end -/

theorem Guard.nextCandidate_none {g : Guard} (h : ∀ c ∈ g.claims, c.phase = .held) (taken : List ClaimKey) :
    g.nextCandidate taken = none := by
  cases e : g.nextCandidate taken with
  | none => rfl
  | some c =>
    obtain ⟨hc, hw⟩ := Guard.nextCandidate_some e
    rw [h c hc] at hw
    cases hw

theorem Event.evaluateRounds_idle (n : Nat) {ev : Event} (h : ∀ c ∈ ev.guard.claims, c.phase = .held)
    (taken : List ClaimKey) : ev.evaluateRounds n taken = ev := by
  cases n with
  | zero => rfl
  | succ n =>
    unfold Event.evaluateRounds
    rw [Guard.nextCandidate_none h]

/-- No claim waits: an evaluation finds no candidate. -/
theorem Event.evaluateIfCalled_idle {ev : Event} (h : ∀ c ∈ ev.guard.claims, c.phase = .held) :
    ev.evaluateIfCalled = ev ∨ ev.evaluateIfCalled = { ev with evaluate := false } ∨
      ev.evaluateIfCalled = { ev with evaluate := false, reformed := [] } := by
  unfold Event.evaluateIfCalled Event.runEvaluation
  split
  · split
    · exact .inr (.inl rfl)
    · rw [Event.evaluateRounds_idle 4000 h]
      exact .inr (.inr rfl)
  · exact .inl rfl

theorem Event.endPlans_idle {ev : Event} (h : ev.guard.nothingEnds) : ev.endPlans = { ev with judged := [] } := by
  have fold : ∀ (js : List (Arm × SlotIx)) (ev : Event), ev.guard.nothingEnds →
      js.foldl (fun ev j => ev.endPlan j.1 j.2) ev = ev := by
    intro js
    induction js with
    | nil => exact fun _ _ => rfl
    | cons j js ih =>
      intro ev h
      have one : ev.endPlan j.1 j.2 = ev := by
        unfold Event.endPlan
        split
        · rename_i p e
          exact absurd e (h.2 _ _ p)
        · rfl
      rw [List.foldl_cons, one]
      exact ih ev h
  exact fold _ { ev with judged := [] } h

theorem Event.endDraining_idle {ev : Event} (h : ev.guard.nothingEnds) : ev.endDraining = ev := by
  unfold Event.endDraining
  rw [if_neg fun e => h.1 e.1]

/-- With no claim waiting, no section over its threshold and no plan to end, an event ends as it is. -/
theorem Event.finish_idle {ev : Event} (hw : ∀ c ∈ ev.guard.claims, c.phase = .held) (hq : ev.reached = [])
    (he : ev.guard.nothingEnds) : ev.finish.out = ev.out ++ ev.late ∧ ev.finish.guard = ev.guard := by
  have ended : ∀ e : Event, e.reached = [] → e.guard.nothingEnds →
      ((e.afterReply.dealWithSections 8).endPlans).endDraining = { e.afterReply with judged := [] } := by
    intro e hq he
    rw [Event.dealWithSections_none 8 (ev := e.afterReply) hq, Event.endPlans_idle (ev := e.afterReply) he,
      Event.endDraining_idle (ev := { e.afterReply with judged := [] }) he]
  unfold Event.finish
  rcases Event.evaluateIfCalled_idle hw with e | e | e
  · rw [e, ended ev hq he]
    exact ⟨rfl, rfl⟩
  · rw [e, ended { ev with evaluate := false } hq he]
    exact ⟨rfl, rfl⟩
  · rw [e, ended { ev with evaluate := false, reformed := [] } hq he]
    exact ⟨rfl, rfl⟩

/-- No plan comes to its end by the way. -/
theorem Guard.Change.nothingEnds {g h : Guard} (c : Guard.Change g h) (e : g.nothingEnds) : h.nothingEnds := by
  obtain ⟨mode, slots⟩ := e
  refine ⟨?_, fun x i p hp => ?_⟩
  · rcases c.mode with hm | ⟨hm, -⟩
    · rwa [hm]
    · exact absurd hm mode
  · obtain ⟨-, -, -, -, -, -, f0, f1⟩ := c.armKeeps x
    have follows : ((g.arm x).slot i).follows ((h.arm x).slot i) := by
      cases i
      · exact f0
      · exact f1
    rw [hp] at follows
    cases hs : (g.arm x).slot i with
    | finishing q => exact slots x i q hs
    | _ =>
      rw [hs] at follows
      exact follows

end Sys2Proof.Machine


/-! # FENCE and UNFENCE (O18)

Both read the cells of their shape, change the fence layer, and have the waiting claims formed anew: `Event.Refences` is what
the two changes of the layer have in common, and `Event.Refences.formsAnew` what follows from it for each waiting claim. -/

namespace Sys2Proof.Machine

/-! ## What follows from what -/

theorem Guard.followedBy_trans {g h k : Guard} (a : g.followedBy h) (b : h.followedBy k) : g.followedBy k := by
  obtain ⟨a1, a2, a3, a4, a5, a6, a7, a8, am, aa, ac, ar⟩ := a
  obtain ⟨b1, b2, b3, b4, b5, b6, b7, b8, bm, ba, bc, br⟩ := b
  refine ⟨b1.trans a1, b2.trans a2, b3.trans a3, b4.trans a4, b5.trans a5, b6.trans a6, b7.trans a7, b8.trans a8, ?_,
    fun x => ArmState.keeps_trans (aa x) (ba x), fun d hd => ?_, fun n hn => br n (ar n hn)⟩
  · rcases am with am | ⟨am, hm⟩
    · rw [← am]
      exact bm
    · rcases bm with bm | ⟨bm, -⟩
      · exact .inr ⟨am, bm.trans hm⟩
      · rw [hm] at bm
        cases bm
  · obtain ⟨e, he, ke⟩ := bc d hd
    obtain ⟨f, hf, kf⟩ := ac e he
    exact ⟨f, hf, Claim.keeps_trans kf ke⟩

/-- What follows does so whatever the fence layer is. -/
theorem Guard.followedBy_withFences {g h : Guard} (a : g.followedBy h) (fs : CellSet) :
    { g with fences := fs }.followedBy { h with fences := fs } := by
  obtain ⟨a1, a2, a3, a4, a5, -, a7, a8, am, aa, ac, ar⟩ := a
  exact ⟨a1, a2, a3, a4, a5, rfl, a7, a8, am, fun x => by cases x; exacts [aa .A, aa .B], ac, ar⟩

theorem Guard.fenceCells_change (g : Guard) (cells : CellSet) :
    Guard.Change { g with fences := unionCells g.fences cells } (g.fenceCells cells) :=
  .trans (.claims { g with fences := unionCells g.fences cells } (fun c => { c with reserved := minusCells c.reserved cells })
    fun _ => ⟨rfl, rfl, rfl, rfl, rfl, rfl, id⟩) (.reindex _ cells)

theorem Guard.unfenceCells_change (g : Guard) (cells : CellSet) :
    Guard.Change { g with fences := minusCells g.fences cells } (g.unfenceCells cells) := .reindex _ cells

/-! ## The two changes of the fence layer -/

/-- The changes that a change of the fence layer makes beside that layer: entries written, reservations dropped. -/
structure Event.Refences (ev ev' : Event) : Prop where
  cfg : ev'.guard.cfg = ev.guard.cfg
  retired : ev'.guard.isRetired = ev.guard.isRetired
  poisoned : ev'.guard.poisoned = ev.guard.poisoned
  mode : ev'.guard.mode = ev.guard.mode
  arm : ∀ x, ev'.guard.arm x = ev.guard.arm x
  findings : ev'.guard.findings = ev.guard.findings
  reads : ev'.guard.reads = ev.guard.reads
  claims : ∃ r : Claim → CellSet, (∀ c, ∀ e ∈ r c, e ∈ c.reserved) ∧
    ev'.guard.claims = ev.guard.claims.map fun c => { c with reserved := r c }
  touched : ev'.touched = ev.touched
  reached : ev'.reached = ev.reached
  late : ev'.late = ev.late
  out : ev'.out = ev.out

/-- FENCE's change before the waiting claims follow it. -/
def Event.fenced (ev : Event) (cells : CellSet) : Event :=
  (ev.callEvaluation (ev.guard.claims.any fun k => meets k.reserved cells)).onGuard fun g => g.fenceCells cells

/-- UNFENCE's change before the waiting claims follow it. -/
def Event.unfenced (ev : Event) (cells : CellSet) : Event :=
  (ev.onGuard fun g => g.unfenceCells cells).callEvaluation (!cells.isEmpty)

theorem Event.addFences_eq (ev : Event) (cells : CellSet) : ev.addFences cells = (ev.fenced cells).fencesChanged cells := rfl

theorem Event.dropFences_eq (ev : Event) (cells : CellSet) :
    ev.dropFences cells = (ev.unfenced cells).fencesChanged cells := rfl

theorem Event.fenced_refences (ev : Event) (cells : CellSet) : ev.Refences (ev.fenced cells) where
  cfg := Guard.reindex_cfg _ _
  retired := Guard.isRetired_of_grid (Guard.grid_of_frame (Guard.reindex_frame _ _))
  poisoned := Guard.reindex_poisoned _ _
  mode := Guard.reindex_mode _ _
  arm x := by
    refine (Guard.reindex_arm _ cells x).trans ?_
    cases x <;> rfl
  findings := Guard.reindex_findings _ _
  reads := Guard.reindex_reads _ _
  claims := ⟨fun c => minusCells c.reserved cells, fun _ _ h => (mem_minusCells.1 h).1, Guard.reindex_claims _ _⟩
  touched := rfl
  reached := rfl
  late := rfl
  out := rfl

theorem Event.unfenced_refences (ev : Event) (cells : CellSet) : ev.Refences (ev.unfenced cells) where
  cfg := Guard.reindex_cfg _ _
  retired := Guard.isRetired_of_grid (Guard.grid_of_frame (Guard.reindex_frame _ _))
  poisoned := Guard.reindex_poisoned _ _
  mode := Guard.reindex_mode _ _
  arm x := by
    refine (Guard.reindex_arm _ cells x).trans ?_
    cases x <;> rfl
  findings := Guard.reindex_findings _ _
  reads := Guard.reindex_reads _ _
  claims := ⟨fun c => c.reserved, fun _ _ h => h, (Guard.reindex_claims _ _).trans (List.map_id' _).symm⟩
  touched := rfl
  reached := rfl
  late := rfl
  out := rfl

/-! ## What a bounce posts and tallies -/

@[simp] theorem Event.settleEntry_out (ev : Event) (c : Claim) (o : EntryOutcome) :
    (ev.settleEntry c o).out = ev.out := by
  unfold Event.settleEntry
  split <;> rfl

theorem Event.leaveWaiting_out (ev : Event) (c : Claim) (n : ArmNotice) :
    (ev.leaveWaiting c n).out = ev.out ++ [.toArm c.arm n] := by
  simp only [Event.leaveWaiting, Event.callEvaluation, Event.settleEntry_out]
  rfl

theorem ArmState.slot_setSlot (a : ArmState) (i : SlotIx) (s : Slot) : (a.setSlot i s).slot i = s := by
  cases i <;> rfl

theorem Event.settleEntry_slot (ev : Event) {c : Claim} {i : SlotIx} {n : Nat} (o : EntryOutcome)
    (h : c.origin = .plan i n) :
    ((ev.settleEntry c o).guard.arm c.arm).slot i = ((ev.guard.arm c.arm).slot i).onPlan (Plan.tally o) := by
  unfold Event.settleEntry
  rw [h]
  dsimp only
  unfold Event.tally Event.signal Guard.signal
  simp only [Event.onGuard_guard, Guard.arm_onArm]
  exact ArmState.slot_setSlot _ _ _

@[simp] theorem Guard.succeed_arm (g : Guard) (c : Claim) (x : Arm) : (g.succeed c).arm x = g.arm x := by
  unfold Guard.succeed
  split
  · cases x <;> rfl
  · rfl

@[simp] theorem Guard.removeClaim_arms (g : Guard) (k : ClaimKey) (x : Arm) : (g.removeClaim k).arm x = g.arm x := by
  cases x <;> rfl

theorem Event.leaveWaiting_slot (ev : Event) {c : Claim} {i : SlotIx} {m : Nat} (n : ArmNotice) (h : c.origin = .plan i m) :
    ((ev.leaveWaiting c n).guard.arm c.arm).slot i = ((ev.guard.arm c.arm).slot i).onPlan (Plan.tally .missed) := by
  unfold Event.leaveWaiting Event.callEvaluation
  dsimp only
  rw [Event.settleEntry_slot _ _ h, Event.post_guard, Event.onGuard_guard, Guard.reindex_arm, Guard.succeed_arm,
    Guard.removeClaim_arms]

@[simp] theorem Event.refitted_arm (ev : Event) (c : Claim) (n : Nat) (x : Arm) :
    (ev.refitted c n).guard.arm x = ev.guard.arm x := by
  unfold Event.refitted
  dsimp only
  rw [Event.onGuard_guard, Guard.refit_eq, Guard.reindex_arm, Guard.onClaim_arm]
  cases x <;> rfl

/-! ## The waiting claims after a change of the layer, with good reads -/

theorem eq_singleton_of_nodup {α : Type} {l : List α} {a : α} (n : l.Nodup) (m : a ∈ l) (h : ∀ b ∈ l, b = a) :
    l = [a] := by
  match l with
  | [b] => rw [h b List.mem_cons_self]
  | b :: c :: _ =>
    have e : b = c := (h b List.mem_cons_self).trans (h c (List.mem_cons_of_mem _ List.mem_cons_self)).symm
    exact absurd (e ▸ List.mem_cons_self) (List.nodup_cons.1 n).1

section
variable {ev ev' : Event} (r : ev.Refences ev')

/-- The claim that a claim has become by the change of the layer alone. -/
theorem Event.Refences.claim (r : ev.Refences ev') {k : Claim} (hk : k ∈ ev.guard.claims) :
    ∃ k' ∈ ev'.guard.claims, k.Stays k' ∧ k'.phase = k.phase := by
  obtain ⟨res, sub, e⟩ := r.claims
  refine ⟨{ k with reserved := res k }, ?_, ⟨⟨rfl, rfl, rfl, rfl, rfl, rfl, id⟩, rfl, rfl, fun d hd => .inl (sub k d hd)⟩, rfl⟩
  rw [e]
  exact List.mem_map.2 ⟨k, hk, rfl⟩

theorem Event.Refences.origin (r : ev.Refences ev') {d : Claim} (hd : d ∈ ev'.guard.claims) :
    ∃ k ∈ ev.guard.claims, d.key = k.key ∧ d.phase = k.phase := by
  obtain ⟨res, -, e⟩ := r.claims
  rw [e] at hd
  obtain ⟨k, hk, rfl⟩ := List.mem_map.1 hd
  exact ⟨k, hk, rfl, rfl⟩

theorem Event.Refences.nothingEnds (r : ev.Refences ev') (h : ev.guard.nothingEnds) : ev'.guard.nothingEnds :=
  ⟨by rw [r.mode]; exact h.1, fun x i p => by rw [r.arm]; exact h.2 x i p⟩

variable (t : ev'.guard.tidy) (hg : ev'.guard.foretoldGood) {changed : CellSet}
  (hr : (ev'.fencesChanged changed).finish.guard.reads = ev'.guard.reads)

/-- The event in which the touched claims are formed anew. -/
def Event.touching (ev : Event) (cells : CellSet) : Event := { ev with touched := unionCells ev.touched cells }

theorem Event.fencesChanged_eq (ev : Event) (cells : CellSet) : ev.fencesChanged cells = (ev.touching cells).settle := rfl

include hr in
theorem Event.fencesChanged_reads : (ev'.touching changed).settle.guard.reads = ev'.guard.reads :=
  Nat.le_antisymm
    (hr ▸ (Event.evaluateIfCalled_reads_le _).trans (ev'.fencesChanged changed).finish_reads_le)
    (ev'.touching changed).settle_reads_le

include r t in
/-- A waiting claim is formed anew exactly when one of its cells changed. -/
theorem Event.Refences.mem_touchedKeys (ht : ev.touched = []) {k : Claim} (hk : k ∈ ev.guard.claims)
    (hw : k.phase = .waiting) :
    k.key ∈ (ev'.touching changed).touchedKeys ↔ ∃ d ∈ k.shape.cells ev.guard.cfg, d ∈ changed := by
  obtain ⟨k', hk', stays, phase⟩ := r.claim hk
  have mem : ∀ d, d ∈ (ev'.touching changed).touched ↔ d ∈ changed := fun d => by
    change d ∈ unionCells ev'.touched changed ↔ _
    rw [mem_unionCells, r.touched, ht]
    simp
  rw [Event.mem_touchedKeys]
  constructor
  · rintro ⟨c, hc, -, ⟨d, hd, hm⟩, e⟩
    obtain rfl := t.keysDiffer.eq hc hk' (e.trans stays.keeps.key.symm)
    rw [stays.keeps.shape] at hd
    exact ⟨d, r.cfg ▸ hd, (mem d).1 hm⟩
  · rintro ⟨d, hd, hm⟩
    refine ⟨k', hk', phase.trans hw, ⟨d, ?_, (mem d).2 hm⟩, stays.keeps.key⟩
    rw [stays.keeps.shape]
    exact r.cfg.symm ▸ hd

include t hg hr in
/-- The event before its end: steady, the touched claims formed anew; and what its end leaves. -/
theorem Event.Refences.course (r : ev.Refences ev') (hq : ev.reached = []) :
    Event.Steady { ev'.touching changed with touched := [] } (ev'.fencesChanged changed) ∧
    Guard.FormsAnew (ev'.touching changed).touchedKeys ev'.guard (ev'.fencesChanged changed).guard ∧
    ∀ c ∈ (ev'.fencesChanged changed).guard.claims, ∃ d ∈ (ev'.fencesChanged changed).finish.guard.claims, c.Stays d := by
  have reads := Event.fencesChanged_reads hr
  obtain ⟨steady, forms⟩ := Event.settle_formsAnew (ev := ev'.touching changed) t hg reads
  refine ⟨steady, forms, ?_⟩
  refine Event.finish_stays steady.good steady.touched (steady.reached.trans (r.reached.trans hq)) ?_ (hr.trans reads.symm)
  exact ((ev'.touching changed).settle_change).keysDiffer t.keysDiffer

section
variable (ht : ev.touched = []) (hq : ev.reached = []) {k : Claim} (hk : k ∈ ev.guard.claims) (hw : k.phase = .waiting)
include r t hg hr ht hq hk hw

/-- A waiting claim none of whose cells changed stays. -/
theorem Event.Refences.untouched (h : ∀ d ∈ k.shape.cells ev.guard.cfg, d ∉ changed) :
    ∃ d ∈ (ev'.fencesChanged changed).finish.guard.claims, k.Stays d := by
  obtain ⟨-, forms, ends⟩ := r.course t hg hr hq
  obtain ⟨k', hk', stays, -⟩ := r.claim hk
  have apart : k'.key ∉ (ev'.touching changed).touchedKeys := by
    rw [stays.keeps.key, r.mem_touchedKeys t ht hk hw]
    rintro ⟨d, hd, hm⟩
    exact h d hd hm
  obtain ⟨d, hd, sd⟩ := forms.stays k' hk' apart
  obtain ⟨e, he, se⟩ := ends d hd
  exact ⟨e, he, (stays.trans sd).trans se⟩

variable (hc : ∃ d ∈ k.shape.cells ev.guard.cfg, d ∈ changed)
include hc

/-- One that has a changed cell is formed anew. -/
theorem Event.Refences.formed (h : ev'.guard.formed k.shape ≠ []) :
    ∃ d ∈ (ev'.fencesChanged changed).finish.guard.claims,
      k.FormedAs (ev'.guard.formed k.shape) (k.shape.cells ev.guard.cfg).length d := by
  obtain ⟨-, forms, ends⟩ := r.course t hg hr hq
  obtain ⟨k', hk', stays, -⟩ := r.claim hk
  have hm : k'.key ∈ (ev'.touching changed).touchedKeys := by
    rwa [stays.keeps.key, r.mem_touchedKeys t ht hk hw]
  have anew := forms.anew k' hk' hm
  rw [stays.keeps.shape, r.cfg] at anew
  obtain ⟨d, hd, fd⟩ := anew h
  obtain ⟨e, he, se⟩ := ends d hd
  exact ⟨e, he, (stays.then_formedAs fd).then_stays se⟩

variable (h : ev'.guard.formed k.shape = [])
include h

/-- One of which nothing is left leaves the table. -/
theorem Event.Refences.gone : ∀ d ∈ (ev'.fencesChanged changed).finish.guard.claims, d.key ≠ k.key := by
  obtain ⟨-, forms, -⟩ := r.course t hg hr hq
  obtain ⟨k', hk', stays, -⟩ := r.claim hk
  have hm : k'.key ∈ (ev'.touching changed).touchedKeys := by
    rwa [stays.keeps.key, r.mem_touchedKeys t ht hk hw]
  have gone := forms.gone k' hk' hm
  rw [stays.keeps.shape, stays.keeps.key] at gone
  intro d hd
  obtain ⟨e, he, ke⟩ := ((ev'.fencesChanged changed).finish_change).claim d hd
  rw [ke.key]
  exact gone h e he

variable (alone : ∀ d ∈ ev.guard.claims, d.key ≠ k.key → d.phase = .held)
include alone

omit hq in
/-- The only waiting claim, with nothing left of it: the event is its bounce. -/
theorem Event.Refences.bounced : ∃ k' n, k.keeps k' ∧
    ev'.fencesChanged changed =
      (Event.refitted { ev'.touching changed with touched := [] } k' n).bounce
        (k'.refitted [] (k'.shape.cells ev'.guard.cfg).length) .empty := by
  obtain ⟨k', hk', stays, -⟩ := r.claim hk
  have hm : k.key ∈ (ev'.touching changed).touchedKeys := (r.mem_touchedKeys t ht hk hw).2 hc
  have only : (ev'.touching changed).touchedKeys = [k'.key] := by
    rw [stays.keeps.key]
    refine eq_singleton_of_nodup (Event.touchedKeys_nodup t) hm fun j hj => ?_
    obtain ⟨c, hc, waits, -, rfl⟩ := Event.mem_touchedKeys.1 hj
    obtain ⟨b, hb, key, phase⟩ := r.origin hc
    by_contra ne
    rw [phase, alone b hb (key ▸ ne)] at waits
    cases waits
  have reads := Event.fencesChanged_reads hr
  have settled := Event.settle_good (ev := ev'.touching changed) t hg reads
  rw [only, List.foldl_cons, List.foldl_nil] at settled
  rw [settled] at reads
  obtain ⟨n, formed⟩ := Event.reform_good (ev := { ev'.touching changed with touched := [] }) t hg hk' reads
  refine ⟨k', n, stays.keeps, ?_⟩
  rw [Event.fencesChanged_eq, settled, formed]
  exact if_pos (stays.keeps.shape.symm ▸ h)

/-- And BOUNCED is all that is posted, and its entry is missed. -/
theorem Event.Refences.bounced_alone (hl : ev.late = []) (ho : ev.out = []) (he : ev.guard.nothingEnds) :
    (ev'.fencesChanged changed).finish.out = [.toArm k.arm (.bounced k.number k.origin .empty)] ∧
    ∀ i n q, k.origin = .plan i n → (ev.guard.arm k.arm).slot i = .active q →
      ((ev'.fencesChanged changed).finish.guard.arm k.arm).slot i = .active { q with missed := sat16 (q.missed + 1) } := by
  obtain ⟨steady, forms, -⟩ := r.course t hg hr hq
  obtain ⟨k', n, keeps, bounce⟩ := r.bounced t hg hr ht hk hw hc h alone
  have arm : k'.arm = k.arm := congrArg ClaimKey.arm keeps.key
  have number : k'.number = k.number := congrArg ClaimKey.number keeps.key
  have origin : k'.origin = k.origin := keeps.2.1
  have change : Guard.Change ev'.guard (ev'.fencesChanged changed).guard := (ev'.touching changed).settle_change
  have held : ∀ d ∈ (ev'.fencesChanged changed).guard.claims, d.phase = .held := by
    intro d hd
    obtain ⟨c, hc', kc⟩ := change.claim d hd
    obtain ⟨b, hb, key, phase⟩ := r.origin hc'
    refine kc.held (phase.trans (alone b hb fun e => ?_))
    obtain ⟨k'', hk'', stays, -⟩ := r.claim hk
    have hm : k''.key ∈ (ev'.touching changed).touchedKeys := by
      rwa [stays.keeps.key, r.mem_touchedKeys t ht hk hw]
    have gone := forms.gone k'' hk'' hm
    rw [stays.keeps.shape, stays.keeps.key] at gone
    exact gone h d hd (kc.key.trans (key.trans e))
  obtain ⟨out, guard⟩ := Event.finish_idle held (steady.reached.trans (r.reached.trans hq))
    (change.nothingEnds (r.nothingEnds he))
  have late : (ev'.fencesChanged changed).late = [] := steady.late.trans (r.late.trans hl)
  refine ⟨?_, fun i m q plan active => ?_⟩
  · rw [out, late, List.append_nil, bounce, Event.bounce, Event.leaveWaiting_out]
    have start : (Event.refitted { ev'.touching changed with touched := [] } k' n).out = [] := r.out.trans ho
    rw [start, List.nil_append]
    change [Posted.toArm k'.arm (.bounced k'.number k'.origin .empty)] = _
    rw [arm, number, origin]
  · rw [guard, bounce, Event.bounce, ← arm]
    refine (Event.leaveWaiting_slot _ (c := k'.refitted [] _) _ (origin.trans plan)).trans ?_
    rw [Event.refitted_arm]
    change ((ev'.guard.arm k'.arm).slot i).onPlan _ = _
    rw [r.arm, arm, active]
    rfl

end

end

end Sys2Proof.Machine


/-! # FENCE and UNFENCE: the requests (O18) -/

namespace Sys2Proof.Machine

/-! ## The reads of the shape -/

/-- The event once the cells of the request's shape are read. -/
def Guard.fenceRead (g : Guard) (s : Shape) : Event := (g.event.readCells .fence (s.cells g.cfg)).1

theorem Guard.fenceRead_change (g : Guard) (s : Shape) : Guard.Change g (g.fenceRead s).guard :=
  g.event.readCells_change .fence (s.cells g.cfg)

theorem Guard.fenceRead_fences (g : Guard) (s : Shape) : (g.fenceRead s).guard.fences = g.fences := (g.fenceRead_change s).fences

/-- Good reads leave the entries as they are. -/
theorem Guard.fenceRead_entryOf {g : Guard} {s : Shape} (h : g.goodFor (g.draws (s.cells g.cfg))) :
    (g.fenceRead s).guard.entryOf = g.entryOf := by
  unfold Guard.fenceRead
  rw [Event.readCells_good .fence (s.cells g.cfg) rfl h]
  rfl

/-- The cells of a shape that are in the fence layer. -/
def Guard.fencedOf (g : Guard) (s : Shape) : CellSet := (s.cells g.cfg).filter fun c => c ∈ g.fences

/-- The cells of a shape that are not in the fence layer. -/
def Guard.freshOf (g : Guard) (s : Shape) : CellSet := (s.cells g.cfg).filter fun c => c ∉ g.fences

theorem Guard.cells_split (g : Guard) (s : Shape) :
    (s.cells g.cfg).length = (g.fencedOf s).length + (g.freshOf s).length := by
  unfold Guard.fencedOf Guard.freshOf
  rw [(s.cells g.cfg).length_eq_length_filter_add fun c => decide (c ∈ g.fences)]
  simp

theorem Guard.countOwned_le (g : Guard) (cells : CellSet) : g.countOwned cells ≤ cells.length := List.length_filter_le _ _

theorem Guard.serveFence_eq {g : Guard} {p : List Byte} {s : Shape} (h : shapeAt g.cfg p 0 = some s) :
    g.serveFence p = (((g.fenceRead s).fenced (g.freshOf s)).fencesChanged (g.freshOf s),
      threeCounts ((g.freshOf s).length - (g.fenceRead s).guard.countOwned (g.freshOf s))
        ((g.fenceRead s).guard.countOwned (g.freshOf s)) (g.fencedOf s).length) := by
  have third : (g.fencedOf s).length = (s.cells g.cfg).length - (g.freshOf s).length := by
    rw [g.cells_split s, Nat.add_sub_cancel]
  have fresh : g.freshOf s = minusCells (s.cells g.cfg) (g.fenceRead s).guard.fences := by
    rw [g.fenceRead_fences s]
    rfl
  unfold Guard.serveFence
  rw [h, third, fresh]
  rfl

theorem Guard.serveUnfence_eq {g : Guard} {p : List Byte} {s : Shape} (h : shapeAt g.cfg p 0 = some s) :
    g.serveUnfence p = (((g.fenceRead s).unfenced (g.fencedOf s)).fencesChanged (g.fencedOf s),
      threeCounts ((g.fencedOf s).length - (g.fenceRead s).guard.countOwned (g.fencedOf s))
        ((g.fenceRead s).guard.countOwned (g.fencedOf s)) (g.freshOf s).length) := by
  have third : (g.freshOf s).length = (s.cells g.cfg).length - (g.fencedOf s).length := by
    rw [g.cells_split s, Nat.add_sub_cancel_left]
  have fenced : g.fencedOf s = (s.cells g.cfg).filter fun c => c ∈ (g.fenceRead s).guard.fences := by
    rw [g.fenceRead_fences s]
    rfl
  unfold Guard.serveUnfence
  rw [h, third, fenced]
  rfl

/-- The cells of a set that an arm owns, as good reads find them. -/
theorem Guard.countOwned_fenceRead {g : Guard} {s : Shape} (h : g.goodFor (g.draws (s.cells g.cfg))) (cells : CellSet) :
    (g.fenceRead s).guard.countOwned cells = (cells.filter fun c => (g.entryOf c).owner.isSome).length := by
  unfold Guard.countOwned
  rw [Guard.fenceRead_entryOf h]

/-! ## The layer, and what else can change -/

/-- FENCE's layer: the cells of the shape join it. -/
theorem Guard.mem_fencedLayer {g : Guard} {s : Shape} {c : Cell} :
    c ∈ unionCells (g.fenceRead s).guard.fences (g.freshOf s) ↔ c ∈ g.fences ∨ c ∈ s.cells g.cfg := by
  rw [mem_unionCells, g.fenceRead_fences, Guard.freshOf, List.mem_filter]
  by_cases h : c ∈ g.fences <;> simp [h]

/-- UNFENCE's layer: they leave it. -/
theorem Guard.mem_unfencedLayer {g : Guard} {s : Shape} {c : Cell} :
    c ∈ minusCells (g.fenceRead s).guard.fences (g.fencedOf s) ↔ c ∈ g.fences ∧ c ∉ s.cells g.cfg := by
  rw [mem_minusCells, g.fenceRead_fences, Guard.fencedOf, List.mem_filter]
  by_cases h : c ∈ g.fences <;> simp [h]

theorem Event.fencesChanged_change (ev : Event) (cells : CellSet) :
    Guard.Change ev.guard (ev.fencesChanged cells).finish.guard :=
  .trans (ev.touching cells).settle_change (ev.fencesChanged cells).finish_change

section
variable {g k : Guard} {read changed : Event} {fs : CellSet} (reads : Guard.Change g read.guard)
  (layer : Guard.Change { read.guard with fences := fs } changed.guard) (rest : Guard.Change changed.guard k)
include reads layer rest

omit reads in
theorem Guard.fences_of_layer : k.fences = fs := rest.fences.trans layer.fences

/-- Reads, a change of the fence layer, and what follows it. -/
theorem Guard.followedBy_of_layer : { g with fences := k.fences }.followedBy k := by
  rw [Guard.fences_of_layer layer rest]
  exact Guard.followedBy_trans (Guard.followedBy_withFences reads.followedBy fs) (layer.trans rest).followedBy

end

/-! ## The waiting claims -/

/-- What becomes of a waiting claim of `g` by the time of `h`, the fences of some cells having changed; `posted` says that
these notices are all. -/
def Guard.FollowsFences (g h : Guard) (changed : CellSet) (posted : List Posted → Prop) (k : Claim) : Prop :=
  let own := k.shape.cells g.cfg
  let kept := own.filter fun d => d ∉ h.fences ∧ g.isRetired d.sec = false ∧ d ∉ g.poisoned
  ((∀ d ∈ own, d ∉ changed) → ∃ d ∈ h.claims, k.keeps d ∧ d.effective = k.effective ∧ d.excluded = k.excluded) ∧
  ((∃ d ∈ own, d ∈ changed) →
    (kept ≠ [] → ∃ d ∈ h.claims, k.keeps d ∧ d.effective = kept ∧ d.excluded = own.length - kept.length ∧
      ∀ e ∈ d.reserved, e ∈ kept) ∧
    (kept = [] → (∀ d ∈ h.claims, d.key ≠ k.key) ∧
      ((∀ d ∈ g.claims, d.key ≠ k.key → d.phase = .held) → g.nothingEnds →
        posted [.toArm k.arm (.bounced k.number k.origin .empty)] ∧
        ∀ i n q, k.origin = .plan i n → (g.arm k.arm).slot i = .active q →
          (h.arm k.arm).slot i = .active { q with missed := sat16 (q.missed + 1) })))

/-- What the records leave of a shape after a change of the layer. -/
theorem Event.Refences.formed_eq {ev ev' : Event} (r : ev.Refences ev') (s : Shape) : ev'.guard.formed s =
    (s.cells ev.guard.cfg).filter fun d => d ∉ ev'.guard.fences ∧ ev.guard.isRetired d.sec = false ∧ d ∉ ev.guard.poisoned := by
  rw [Guard.formed, r.cfg, r.retired, r.poisoned]

theorem Event.Refences.followsFences {ev ev' : Event} (r : ev.Refences ev') (t : ev'.guard.tidy)
    (hg : ev'.guard.foretoldGood) {changed : CellSet}
    (hr : (ev'.fencesChanged changed).finish.guard.reads = ev'.guard.reads)
    (ht : ev.touched = []) (hq : ev.reached = []) (hl : ev.late = []) (ho : ev.out = [])
    {posted : List Posted → Prop} (hp : posted (ev'.fencesChanged changed).finish.out)
    {k : Claim} (hk : k ∈ ev.guard.claims) (hw : k.phase = .waiting) :
    ev.guard.FollowsFences (ev'.fencesChanged changed).finish.guard changed posted k := by
  unfold Guard.FollowsFences
  dsimp only
  rw [(ev'.fencesChanged_change changed).fences, ← r.formed_eq]
  refine ⟨fun h => ?_, fun hc => ⟨fun h => ?_, fun h => ⟨r.gone t hg hr ht hq hk hw hc h, fun alone ends => ?_⟩⟩⟩
  · obtain ⟨d, hd, stays⟩ := r.untouched t hg hr ht hq hk hw h
    exact ⟨d, hd, stays.keeps, stays.effective, stays.excluded⟩
  · obtain ⟨d, hd, formed⟩ := r.formed t hg hr ht hq hk hw hc h
    exact ⟨d, hd, formed.keeps, formed.effective, formed.excluded, formed.reserved⟩
  · obtain ⟨out, missed⟩ := r.bounced_alone t hg hr ht hq hk hw hc h alone hl ho ends
    exact ⟨out ▸ hp, missed⟩

/-- The waiting claims after a FENCE or an UNFENCE whose reads are all good. -/
theorem Guard.followsFences_of_good {g : Guard} {s : Shape} {ev : Event} (r : (g.fenceRead s).Refences ev)
    (keeps : (g.fenceRead s).guard.tidy → ev.guard.tidy) (t : g.tidy) (hg : g.foretoldGood) {changed : CellSet}
    (hr : (ev.fencesChanged changed).finish.guard.reads = g.reads)
    {posted : List Posted → Prop} (hp : posted (ev.fencesChanged changed).finish.out)
    {k : Claim} (hk : k ∈ g.claims) (hw : k.phase = .waiting) :
    g.FollowsFences (ev.fencesChanged changed).finish.guard changed posted k := by
  have start : g.reads ≤ (g.fenceRead s).guard.reads := g.event.readCells_reads_le .fence (s.cells g.cfg)
  have rest : ev.guard.reads ≤ (ev.fencesChanged changed).finish.guard.reads :=
    (ev.touching changed).settle_reads_le.trans
      ((ev.fencesChanged changed).evaluateIfCalled_reads_le.trans (ev.fencesChanged changed).finish_reads_le)
  have same : ev.guard.reads = g.reads := Nat.le_antisymm (hr ▸ rest) (r.reads ▸ start)
  obtain ⟨n, e⟩ := Event.readCells_drawn (ev := g.event) (who := .fence) (cells := s.cells g.cfg) hg rfl
    (r.reads.symm.trans same)
  have drawn : g.fenceRead s = g.event.drawn n := e
  rw [drawn] at r keeps
  have good : ev.guard.foretoldGood := by
    rw [Guard.foretoldGood, r.findings]
    exact hg.drawn n
  have tidy : ev.guard.tidy := keeps (Guard.SameTray.tidy (g := g) ⟨rfl, rfl⟩ t)
  exact r.followsFences tidy good (hr.trans same.symm) rfl rfl rfl rfl hp hk hw

/-- The same of the state that the request leaves, `replied` being the one with the reply placed. -/
theorem State.followsFences_of_good {s replied : State} {shape : Shape} {ev : Event}
    (r : (s.guard.fenceRead shape).Refences ev) (keeps : (s.guard.fenceRead shape).guard.tidy → ev.guard.tidy)
    (t : s.guard.tidy) {changed : CellSet} (hg : s.goodReads (replied.conclude (ev.fencesChanged changed)))
    {k : Claim} (hk : k ∈ s.guard.claims) (hw : k.phase = .waiting) :
    s.guard.FollowsFences (replied.conclude (ev.fencesChanged changed)).guard changed
      (fun ps => (replied.conclude (ev.fencesChanged changed)).link = replied.link.deliver ps) k :=
  Guard.followsFences_of_good r keeps t hg.1 hg.2
    (posted := fun ps => (replied.conclude (ev.fencesChanged changed)).link = replied.link.deliver ps) rfl hk hw

theorem Event.fenced_tidy {ev : Event} {cells : CellSet} (hin : ev.guard.allInGrid cells) (t : ev.guard.tidy) :
    (ev.fenced cells).guard.tidy := Guard.fenceCells_tidy t hin

theorem Event.unfenced_tidy {ev : Event} {cells : CellSet} (hin : ev.guard.allInGrid cells) (t : ev.guard.tidy) :
    (ev.unfenced cells).guard.tidy := Guard.unfenceCells_tidy t hin

/-- Some cells of the shape, in the grid after its reads. -/
theorem Guard.fenceRead_allInGrid (g : Guard) (s : Shape) (p : Cell → Bool) :
    (g.fenceRead s).guard.allInGrid ((s.cells g.cfg).filter p) := fun d hd => by
  rw [(g.fenceRead_change s).cfg]
  exact Shape.cells_inGrid (List.mem_filter.1 hd).1

/-! ## The two requests -/

/-- A supervisor request served at once, its event and its reply. -/
theorem State.supervisor_served {s : State} (h : s.servesHost) {kind : Byte} (tag : Byte) {p : List Byte}
    (hk : isSupervisorKind kind = true) {ev : Event} {r : Reply} (e : s.guard.serve s.link kind p = (ev, r)) :
    s.whenPowered (fun s => s.supervisorArrival ⟨kind, tag, p⟩) = .next ((s.replied kind tag r).conclude ev) := by
  rw [State.whenPowered_on h.1.1, State.supervisorArrival_served h kind tag p hk, e]

section
variable {s : State} {tag : Byte} {p : List Byte} (hs : s.servesHost) (hl : p.length = 7)
include hs hl

/-- FENCE (R15), served at once. -/
theorem State.fence_served : exec (.fence tag p) s = .next
    ((s.replied 0x05#8 tag (s.guard.serveFence p).2).conclude (s.guard.serveFence p).1) :=
  State.supervisor_served hs tag rfl (Guard.serve_fence s.link hs.1.2 (decide_eq_true hl))

/-- UNFENCE (R16), served at once. -/
theorem State.unfence_served : exec (.unfence tag p) s = .next
    ((s.replied 0x06#8 tag (s.guard.serveUnfence p).2).conclude (s.guard.serveUnfence p).1) :=
  State.supervisor_served hs tag rfl (Guard.serve_unfence s.link hs.1.2 (decide_eq_true hl))

end

/-- Settles O18: each request's reads, its change of the layer, and the waiting claims that follow it. -/
theorem fenceAndUnfence : Obligations.FenceAndUnfence := by
  unfold Obligations.FenceAndUnfence
  intro s tag p shape hs hl hp cells fenced fresh formedAnew
  have split : cells.length = fenced.length + fresh.length := s.guard.cells_split shape
  have readChange := s.guard.fenceRead_change shape
  constructor
  · have served := State.fence_served (tag := tag) hs hl
    rw [Guard.serveFence_eq hp] at served
    have owned := (s.guard.fenceRead shape).guard.countOwned_le fresh
    have layer := (s.guard.fenceRead shape).guard.fenceCells_change fresh
    have rest := ((s.guard.fenceRead shape).fenced fresh).fencesChanged_change fresh
    refine ⟨_, fresh.length - (s.guard.fenceRead shape).guard.countOwned fresh,
      (s.guard.fenceRead shape).guard.countOwned fresh, served, ⟨_, rfl⟩, by omega,
      fun good => Guard.countOwned_fenceRead good fresh, fun c => ?_, fun good hw ho k hk waits => ?_,
      Guard.followedBy_of_layer readChange layer rest⟩
    · have fences := Guard.fences_of_layer layer rest
      exact (iff_of_eq (congrArg (fun fs : CellSet => c ∈ fs) fences)).trans Guard.mem_fencedLayer
    · exact State.followsFences_of_good ((s.guard.fenceRead shape).fenced_refences fresh)
        (Event.fenced_tidy (s.guard.fenceRead_allInGrid shape _)) ⟨hw, ho⟩ good hk waits
  · have served := State.unfence_served (tag := tag) hs hl
    rw [Guard.serveUnfence_eq hp] at served
    have owned := (s.guard.fenceRead shape).guard.countOwned_le fenced
    have layer := (s.guard.fenceRead shape).guard.unfenceCells_change fenced
    have rest := ((s.guard.fenceRead shape).unfenced fenced).fencesChanged_change fenced
    refine ⟨_, fenced.length - (s.guard.fenceRead shape).guard.countOwned fenced,
      (s.guard.fenceRead shape).guard.countOwned fenced, served, ⟨_, rfl⟩, by omega,
      fun good => Guard.countOwned_fenceRead good fenced, fun c => ?_, fun good hw ho k hk waits => ?_,
      Guard.followedBy_of_layer readChange layer rest⟩
    · have fences := Guard.fences_of_layer layer rest
      exact (iff_of_eq (congrArg (fun fs : CellSet => c ∈ fs) fences)).trans Guard.mem_unfencedLayer
    · exact State.followsFences_of_good ((s.guard.fenceRead shape).unfenced_refences fenced)
        (Event.unfenced_tidy (s.guard.fenceRead_allInGrid shape _)) ⟨hw, ho⟩ good hk waits

end Sys2Proof.Machine


/-! # What an event's operations do to an arm

`ArmState.Moves may` is what the operations of an event can do to an arm beside the intake, the calculator and the verdict:
slots and the counters of grants and outcomes freely, the action unit and the vacate set as far as `may` lets them.
`Guard.Moves may` says it of both arms, with one lemma per shared operation; what an arm keeps through all of them is then
read off by induction. -/

namespace Sys2Proof.Machine

/-! ## The relation -/

/-- The changes of an arm that not every operation makes. -/
inductive ArmChange
  /-- the action unit -/
  | act
  /-- cells leave the vacate set -/
  | shrink
  /-- cells join it, the arm not being CLEAR -/
  | join

/-- The events that grants and outcomes signal (R85, R111); a sample and a gap signal others. -/
def CountEvent.ofClaims : CountEvent → Bool
  | .grants | .cellsExcluded | .picks | .skips | .misses => true
  | _ => false

/-- An arm with an event signalled to its selectable counters (R164). -/
def ArmState.signalled (a : ArmState) (e : CountEvent) (n : Nat) : ArmState :=
  { a with counters := { a.counters with selectable := a.counters.selectable.map (Counter.signal e n) } }

theorem Guard.signal_eq (g : Guard) (x : Arm) (e : CountEvent) (n : Nat) :
    g.signal x e n = g.onArm x fun a => a.signalled e n := rfl

inductive ArmState.Moves (may : ArmChange → Prop) : ArmState → ArmState → Prop
  | refl (a : ArmState) : ArmState.Moves may a a
  | trans {a b c : ArmState} : ArmState.Moves may a b → ArmState.Moves may b c → ArmState.Moves may a c
  | slot (a : ArmState) (i : SlotIx) (s : Slot) : ArmState.Moves may a (a.setSlot i s)
  | signal (a : ArmState) (e : CountEvent) (n : Nat) (h : e.ofClaims = true) : ArmState.Moves may a (a.signalled e n)
  | act (a : ArmState) (u : ActionUnit) (h : may .act) : ArmState.Moves may a { a with unit := u }
  | shrink (a : ArmState) (v : CellSet) (h : may .shrink) (sub : ∀ c ∈ v, c ∈ a.vacate) :
      ArmState.Moves may a { a with vacate := v }
  | join (a : ArmState) (v : CellSet) (h : may .join) (z : a.calculator.zone ≠ .clear) :
      ArmState.Moves may a { a with vacate := v }

/-- The same of both arms. -/
def Guard.Moves (may : ArmChange → Prop) (g h : Guard) : Prop := ∀ x, (g.arm x).Moves may (h.arm x)

/-! ## What an arm keeps -/

section
variable {may : ArmChange → Prop} {a b : ArmState} (m : a.Moves may b)
include m

theorem ArmState.Moves.calculator : b.calculator = a.calculator := by
  induction m with
  | trans _ _ i j => exact j.trans i
  | slot a i s => cases i <;> rfl
  | _ => rfl

/-- The action unit stays where nothing acts on it. -/
theorem ArmState.Moves.unit (h : ¬may .act) : b.unit = a.unit := by
  induction m with
  | trans _ _ i j => exact j.trans i
  | slot a i s => cases i <;> rfl
  | act _ _ k => exact absurd k h
  | _ => rfl

/-- No cell joins the vacate set where none may. -/
theorem ArmState.Moves.vacate_sub (h : ¬may .join) : ∀ c ∈ b.vacate, c ∈ a.vacate := by
  induction m with
  | trans _ _ i j => exact fun c hc => i c (j c hc)
  | slot a i s => rw [ArmState.setSlot_vacate]; exact fun _ hc => hc
  | shrink _ _ _ sub => exact sub
  | join _ _ k => exact absurd k h
  | _ => exact fun _ hc => hc

theorem ArmState.Moves.vacate_eq (h : ¬may .join) (k : ¬may .shrink) : b.vacate = a.vacate := by
  induction m with
  | trans _ _ i j => exact j.trans i
  | slot a i s => exact a.setSlot_vacate i s
  | shrink _ _ h' => exact absurd h' k
  | join _ _ h' => exact absurd h' h
  | _ => rfl

/-- A CLEAR arm without vacating cells gets none (R89). -/
theorem ArmState.Moves.vacate_clear (z : a.calculator.zone = .clear) (v : a.vacate = []) : b.vacate = [] := by
  induction m with
  | trans h _ i j => exact j (h.calculator ▸ z) (i z v)
  | slot a i s => exact (a.setSlot_vacate i s).trans v
  | shrink _ _ _ sub => exact List.eq_nil_iff_forall_not_mem.2 fun c hc => by simpa [v] using sub c hc
  | join _ _ _ k => exact absurd z k
  | _ => exact v

end

/-- A counter after an event: one that selects nothing that grants and outcomes signal stays. -/
def Counter.Keeps (k l : Counter) : Prop := l.selection = k.selection ∧ (k.selection.ofClaims = false → l.value = k.value)

theorem Counter.Keeps.refl (k : Counter) : k.Keeps k := ⟨rfl, fun _ => rfl⟩

theorem Counter.Keeps.trans {k l m : Counter} (h : k.Keeps l) (i : l.Keeps m) : k.Keeps m :=
  ⟨i.1.trans h.1, fun e => (i.2 (h.1 ▸ e)).trans (h.2 e)⟩

@[simp] theorem Counter.signal_selection (e : CountEvent) (n : Nat) (k : Counter) :
    (k.signal e n).selection = k.selection := by
  unfold Counter.signal
  split <;> rfl

theorem Counter.signal_value (e : CountEvent) (n : Nat) (k : Counter) :
    (k.signal e n).value = if k.selection = e then sat32 (k.value + n) else k.value := by
  unfold Counter.signal
  split <;> rfl

theorem Counter.signal_keeps {e : CountEvent} (n : Nat) (h : e.ofClaims = true) (k : Counter) : k.Keeps (k.signal e n) := by
  refine ⟨k.signal_selection e n, fun hk => ?_⟩
  have other : k.selection ≠ e := fun he => by
    rw [he, h] at hk
    cases hk
  rw [Counter.signal_value, if_neg other]

theorem ArmState.Moves.counter {may : ArmChange → Prop} {a b : ArmState} (m : a.Moves may b) (i : Nat) :
    (a.counters.selectable.get i).Keeps (b.counters.selectable.get i) := by
  induction m with
  | trans _ _ h k => exact h.trans k
  | slot a j s => cases j <;> exact .refl _
  | signal a e n h =>
    unfold ArmState.signalled
    dsimp only
    rw [Four.get_map]
    exact Counter.signal_keeps n h _
  | _ => exact .refl _

/-! ## Operations that leave both arms alone -/

section
variable {may : ArmChange → Prop}

theorem Guard.Moves.refl (g : Guard) : g.Moves may g := fun _ => .refl _

theorem Guard.Moves.trans {g h k : Guard} (a : g.Moves may h) (b : h.Moves may k) : g.Moves may k :=
  fun x => (a x).trans (b x)

theorem Guard.Moves.of_arms {g h : Guard} (e : ∀ x, h.arm x = g.arm x) : g.Moves may h := fun x => e x ▸ .refl _

theorem Guard.Moves.onArm (g : Guard) (x : Arm) {f : ArmState → ArmState} (m : (g.arm x).Moves may (f (g.arm x))) :
    g.Moves may (g.onArm x f) := by
  intro y
  rw [Guard.arm_onArm_eq]
  split
  · rename_i e
    exact e ▸ m
  · exact .refl _

/-- Cells let out of an arm's vacate set. -/
theorem Guard.Moves.shrink (g : Guard) (x : Arm) {f : CellSet → CellSet} (h : may .shrink)
    (sub : ∀ c ∈ f (g.arm x).vacate, c ∈ (g.arm x).vacate) : g.Moves may (g.onVacate x f) :=
  .onArm g x (.shrink _ _ h sub)

/-- Cells that join the vacate set of an arm that is not CLEAR. -/
theorem Guard.Moves.join (g : Guard) (x : Arm) (f : CellSet → CellSet) (h : may .join)
    (z : (g.arm x).calculator.zone ≠ .clear) : g.Moves may (g.onVacate x f) :=
  .onArm g x (.join _ _ h z)

/-- A fold of operations that each move the arms so. -/
theorem Event.foldl_moves {α : Type} {f : Event → α → Event}
    (h : ∀ (ev : Event) (a : α), ev.guard.Moves may (f ev a).guard) (as : List α) (ev : Event) : ev.guard.Moves may (as.foldl f ev).guard := by
  induction as generalizing ev with
  | nil => exact .refl _
  | cons a as ih => exact .trans (h ev a) (ih _)

@[simp] theorem Guard.drawFinding_arm (g : Guard) (x : Arm) : g.drawFinding.2.arm x = g.arm x := by
  unfold Guard.drawFinding
  split <;> cases x <;> rfl

@[simp] theorem Event.rise_arm (ev : Event) (s n : Nat) (x : Arm) : (ev.rise s n).guard.arm x = ev.guard.arm x := by
  unfold Event.rise
  split
  · dsimp only
    split <;> exact Guard.onSection_arm _ _ _ x
  · rfl

@[simp] theorem Event.uncorrectable_arm (ev : Event) (c : Cell) (x : Arm) :
    (ev.uncorrectable c).guard.arm x = ev.guard.arm x := by
  simp [Event.uncorrectable]

@[simp] theorem Guard.refit_arm (g : Guard) (k : ClaimKey) (old kept : CellSet) (n : Nat) (x : Arm) :
    (g.refit k old kept n).arm x = g.arm x := by
  simp [Guard.refit]

@[simp] theorem Guard.reserve_arm (g : Guard) (c : Claim) (x : Arm) : (g.reserve c).arm x = g.arm x := by
  simp [Guard.reserve]

@[simp] theorem Guard.retireSection_arm (g : Guard) (s : Nat) (x : Arm) : (g.retireSection s).arm x = g.arm x := by
  unfold Guard.retireSection
  dsimp only
  rw [Guard.reindex_arm]
  cases x <;> rfl

@[simp] theorem Guard.restartScrub_arms (g : Guard) (x : Arm) : g.restartScrub.arm x = g.arm x := by
  cases x <;> rfl

@[simp] theorem Event.endDraining_arm (ev : Event) (x : Arm) : ev.endDraining.guard.arm x = ev.guard.arm x := by
  unfold Event.endDraining
  split <;> cases x <;> rfl

/-! ## The claim operations, and plans that end -/

theorem Event.signal_moves (ev : Event) (x : Arm) {e : CountEvent} (n : Nat) (h : e.ofClaims = true) :
    ev.guard.Moves may (ev.signal x e n).guard := .onArm _ x (.signal _ e n h)

theorem EntryOutcome.event_ofClaims (o : EntryOutcome) : o.event.ofClaims = true := by
  cases o <;> rfl

theorem Event.tally_moves (ev : Event) (x : Arm) (i : SlotIx) (o : EntryOutcome) :
    ev.guard.Moves may (ev.tally x i o).guard :=
  .trans (h := ev.guard.onArm x fun a => a.onPlan i (Plan.tally o)) (.onArm ev.guard x (.slot _ i _))
    (Event.signal_moves (ev.onGuard fun g => g.onArm x fun a => a.onPlan i (Plan.tally o)) x 1 o.event_ofClaims)

theorem Event.settleEntry_moves (ev : Event) (c : Claim) (o : EntryOutcome) :
    ev.guard.Moves may (ev.settleEntry c o).guard := by
  unfold Event.settleEntry
  split
  · exact .refl _
  · exact ev.tally_moves _ _ _

theorem Event.leaveWaiting_moves (ev : Event) (c : Claim) (n : ArmNotice) :
    ev.guard.Moves may (ev.leaveWaiting c n).guard := by
  refine .trans (.of_arms fun x => ?_) (Event.settleEntry_moves
    ((ev.onGuard fun g => ((g.removeClaim c.key).succeed c).reindex c.reserved).post (.toArm c.arm n)) c .missed)
  simp

theorem Event.withdrawAll_moves (ev : Event) (p : Claim → Bool) : ev.guard.Moves may (ev.withdrawAll p).guard := by
  refine Event.foldl_moves (fun ev k => ?_) _ ev
  split
  · exact ev.leaveWaiting_moves _ _
  · exact .refl _

theorem Event.endPlan_moves (ev : Event) (x : Arm) (i : SlotIx) : ev.guard.Moves may (ev.endPlan x i).guard := by
  unfold Event.endPlan
  split
  · split
    · exact .refl _
    · exact .onArm _ x (.slot _ i .empty)
  · exact .refl _

theorem Event.endPlans_moves (ev : Event) : ev.guard.Moves may ev.endPlans.guard := by
  unfold Event.endPlans
  exact Event.foldl_moves (f := fun ev (j : Arm × SlotIx) => ev.endPlan j.1 j.2) (fun ev j => ev.endPlan_moves j.1 j.2) _
    { ev with judged := [] }

/-! ## The action unit -/

theorem Guard.onUnit_moves (g : Guard) (x : Arm) (f : ActionUnit → ActionUnit) (h : may .act) : g.Moves may (g.onUnit x f) :=
  .onArm g x (.act _ _ h)

theorem Guard.changeLevel_moves (g : Guard) (x : Arm) (l : Level) (h : may .act) : g.Moves may (g.changeLevel x l) :=
  .trans (g.onUnit_moves x _ h) (Guard.onUnit_moves _ x _ h)

theorem Event.raise_moves (ev : Event) (x : Arm) (src : Source) (h : may .act) :
    ev.guard.Moves may (ev.raise x src).guard := by
  unfold Event.raise
  split
  · exact .refl _
  · exact Guard.onUnit_moves _ x _ h

theorem Event.computeLevel_moves (ev : Event) (x : Arm) (h : may .act) :
    ev.guard.Moves may (ev.computeLevel x).guard := by
  unfold Event.computeLevel
  dsimp only
  split
  · exact .refl _
  · split
    · exact .trans (Guard.changeLevel_moves _ x _ h) (Event.withdrawAll_moves (ev.onGuard fun g => g.changeLevel x _) _)
    · exact Guard.changeLevel_moves _ x _ h

theorem Event.settleLevel_moves (ev : Event) (x : Arm) (h : may .act) :
    ev.guard.Moves may (ev.settleLevel x).guard := by
  unfold Event.settleLevel
  rw [Event.postFaults_guard]
  exact ev.computeLevel_moves x h

theorem Event.latchRevoked_moves (ev : Event) (named : Arm → Bool) (h : may .act) :
    ev.guard.Moves may (ev.latchRevoked named).guard := by
  have latch : ∀ (e : Event) (x : Arm), e.guard.Moves may
      (if named x && (e.guard.arm x).calculator.zone = .inside then e.raise x .revoked else e).guard := by
    intro e x
    split
    · exact e.raise_moves x .revoked h
    · exact .refl _
  unfold Event.latchRevoked
  rw [Event.postFaults_guard]
  exact .trans (.trans (.trans (latch ev .A) (latch _ .B)) (Event.computeLevel_moves _ .A h))
    (Event.computeLevel_moves _ .B h)

/-! ## Reads -/

theorem Guard.poisonCell_arm (g : Guard) (c : Cell) (x : Arm) :
    (g.poisonCell c).arm x = { g.arm x with vacate := dropCell (g.arm x).vacate c } := by
  cases x <;> rfl

theorem Event.poison_moves (ev : Event) (c : Cell) (h : may .shrink) : ev.guard.Moves may (ev.poison c).guard := by
  intro x
  have arm : (ev.poison c).guard.arm x = _ := ev.guard.poisonCell_arm c x
  rw [arm]
  exact .shrink _ _ h fun _ hd => (mem_dropCell.1 hd).1

theorem Event.readRaw_moves (ev : Event) (who : Reader) (c : Cell) (h : may .shrink) :
    ev.guard.Moves may (ev.readRaw who c).1.guard := by
  unfold Event.readRaw
  split
  · exact .refl _
  · dsimp only
    refine .trans (h := ev.guard.drawFinding.2) (.of_arms fun x => by simp) ?_
    split
    · exact .refl _
    · exact .of_arms fun x => by simp
    · exact .of_arms fun x => by simp [Event.postRead_guard]
    · rw [Event.postRead_guard]
      refine .trans (.of_arms fun x => ?_) (Event.poison_moves _ c h)
      simp [Event.postRead_guard]

theorem Event.formRaw_moves (ev : Event) (cells : CellSet) (h : may .shrink) :
    ev.guard.Moves may (ev.formRaw cells).1.guard := by
  induction cells generalizing ev with
  | nil => exact .refl _
  | cons c cs ih => exact .trans (ev.readRaw_moves .arbiter c h) (ih _)

theorem Event.reform_moves (ev : Event) (k : ClaimKey) (h : may .shrink) : ev.guard.Moves may (ev.reform k).guard := by
  unfold Event.reform
  split
  · exact .refl _
  · dsimp only
    have formed : ∀ (cells kept old : CellSet) (n : Nat),
        ev.guard.Moves may ((ev.formRaw cells).1.guard.refit k old kept n) :=
      fun cells kept old n => .trans (ev.formRaw_moves cells h) (.of_arms fun x => by simp)
    split
    · split
      · refine .trans ?_ (Event.leaveWaiting_moves _ _ _)
        exact formed _ _ _ _
      · exact formed _ _ _ _
    · exact formed _ _ _ _

theorem Event.settleRounds_moves (n : Nat) (ev : Event) (h : may .shrink) :
    ev.guard.Moves may (ev.settleRounds n).guard := by
  induction n generalizing ev with
  | zero => exact .refl _
  | succ n ih =>
    unfold Event.settleRounds
    split
    · exact .refl _
    · exact .trans (Event.foldl_moves (fun ev k => Event.reform_moves ev k h) _ { ev with touched := [] }) (ih _)

theorem Event.settle_moves (ev : Event) (h : may .shrink) : ev.guard.Moves may ev.settle.guard :=
  ev.settleRounds_moves 769 h

theorem Event.readCell_moves (ev : Event) (who : Reader) (c : Cell) (h : may .shrink) :
    ev.guard.Moves may (ev.readCell who c).1.guard :=
  .trans (ev.readRaw_moves who c h) (Event.settle_moves _ h)

theorem Event.readCells_moves (ev : Event) (who : Reader) (cells : CellSet) (h : may .shrink) :
    ev.guard.Moves may (ev.readCells who cells).1.guard := by
  induction cells generalizing ev with
  | nil => exact .refl _
  | cons c cs ih => exact .trans (ev.readCell_moves who c h) (ih _)

theorem Event.rewriteAll_moves (ev : Event) (cause : PoisonCause) (cells : CellSet) (h : may .shrink) :
    ev.guard.Moves may (ev.rewriteAll cause cells).guard := by
  refine Event.foldl_moves (fun ev c => ?_) cells ev
  dsimp only
  have rewritten : ev.guard.Moves may (ev.rewrite c).1.guard := .of_arms fun x => by simp [Event.rewrite]
  split
  · exact rewritten
  · exact .trans rewritten (.trans (Event.poison_moves _ c h) (Event.settle_moves _ h))

/-! ## The evaluation -/

theorem Event.testCells_moves (ev : Event) (x : Arm) (ok : Bool) (cells : CellSet) (h : may .shrink) :
    ev.guard.Moves may (ev.testCells x ok cells).1.guard := by
  induction cells generalizing ev ok with
  | nil => exact .refl _
  | cons c cs ih =>
    unfold Event.testCells
    dsimp only
    split
    · exact ev.readCell_moves _ _ h
    · exact .trans (ev.readCell_moves _ _ h) (ih _ _)

theorem Event.testClaim_moves (n : Nat) (ev : Event) (k : ClaimKey) (h : may .shrink) :
    ev.guard.Moves may (ev.testClaim n k).1.guard := by
  induction n generalizing ev with
  | zero => exact .refl _
  | succ n ih =>
    unfold Event.testClaim
    split
    · exact .refl _
    · rename_i c _
      have tested := ev.testCells_moves c.arm true c.effective h
      split
      · rename_i e
        rw [e] at tested
        split
        · exact tested
        · exact .trans tested (ih _)
      · rename_i e
        rw [e] at tested
        exact .trans tested (ih _)

/-- A grant takes the claim's cells out of the vacate set (R74). -/
theorem Guard.grant_moves (g : Guard) (c : Claim) (h : may .shrink) : g.Moves may (g.grant c) := by
  have granted : (g.onClaim c.key Claim.granted).Moves may
      ((g.onClaim c.key Claim.granted).onVacate c.arm fun v => minusCells v c.effective) :=
    .shrink _ c.arm h fun _ hd => (mem_minusCells.1 hd).1
  have start : g.Moves may (g.onClaim c.key Claim.granted) := .of_arms fun x => by simp
  refine .trans (.trans start granted) (.of_arms fun x => ?_)
  unfold Guard.grant
  rw [Guard.reindex_arm, ← Guard.succeed_arm ((g.onClaim c.key Claim.granted).onVacate c.arm _) c]
  cases x <;> rfl

theorem Event.grant_moves (ev : Event) (c : Claim) (h : may .shrink) : ev.guard.Moves may (ev.grant c).guard :=
  .trans (.trans (ev.guard.grant_moves c h) (Event.signal_moves (ev.onGuard fun g => g.grant c) c.arm 1 rfl))
    (Event.signal_moves ((ev.onGuard fun g => g.grant c).signal c.arm .grants 1) c.arm c.excluded rfl)

theorem Event.takeCandidate_moves (ev : Event) (k : ClaimKey) (h : may .shrink) :
    ev.guard.Moves may (ev.takeCandidate k).guard := by
  unfold Event.takeCandidate
  refine .trans (ev.testClaim_moves 769 k h) ?_
  dsimp only
  split
  · exact .refl _
  · split
    · exact Event.grant_moves _ _ h
    · split
      · exact .of_arms fun x => by simp
      · exact .refl _

theorem Event.evaluateRounds_moves (n : Nat) (ev : Event) (taken : List ClaimKey) (h : may .shrink) :
    ev.guard.Moves may (ev.evaluateRounds n taken).guard := by
  induction n generalizing ev taken with
  | zero => exact .refl _
  | succ n ih =>
    unfold Event.evaluateRounds
    split
    · exact .refl _
    · exact .trans (Event.takeCandidate_moves { ev with reformed := [] } _ h) (ih _ _)

theorem Event.runEvaluation_moves (ev : Event) (h : may .shrink) : ev.guard.Moves may ev.runEvaluation.guard := by
  unfold Event.runEvaluation
  split
  · exact .refl _
  · exact ev.evaluateRounds_moves 4000 [] h

theorem Event.evaluateIfCalled_moves (ev : Event) (h : may .shrink) : ev.guard.Moves may ev.evaluateIfCalled.guard := by
  unfold Event.evaluateIfCalled
  split
  · exact ev.runEvaluation_moves h
  · exact .refl _

/-! ## The handover -/

theorem Event.letGo_moves (ev : Event) (cells : CellSet) : ev.guard.Moves may (ev.letGo cells).guard :=
  .of_arms fun x => by simp [Event.letGo]

theorem Event.endHeld_moves (ev : Event) (k : ClaimKey) (o : EntryOutcome) (h : may .shrink) (j : may .join) :
    ev.guard.Moves may (ev.endHeld k o).guard := by
  unfold Event.endHeld
  split
  · exact .refl _
  · dsimp only
    rename_i c _
    refine .trans (ev.readCells_moves .handover (ev.guard.ownCellsOf c) h) ?_
    split
    · exact .refl _
    · rename_i d _
      have left : ∀ e : Event, e.guard.Moves may ((e.onGuard fun g => g.removeClaim k).settleEntry d o).guard :=
        fun e => .trans (.of_arms fun x => Guard.removeClaim_arm _ k x)
          (Event.settleEntry_moves (e.onGuard fun g => g.removeClaim k) _ _)
      split
      · exact .trans (left _) (Event.letGo_moves _ _)
      · rename_i z
        refine .trans (left _) (.trans (.join _ d.arm _ j z) (.of_arms (Guard.reindex_arm _ _)))

theorem Event.complete_moves (ev : Event) (x : Arm) (h : may .shrink) (j : may .join) :
    ev.guard.Moves may (ev.complete x).guard :=
  Event.foldl_moves (fun ev k => ev.endHeld_moves k _ h j) _ ev

theorem Event.vacateProgress_moves (ev : Event) (x : Arm) (h : may .shrink) :
    ev.guard.Moves may (ev.vacateProgress x).guard :=
  .trans (ev.readCells_moves _ _ h) (.trans
    (.shrink (f := fun v => minusCells v _) _ x h fun _ hd => (mem_minusCells.1 hd).1)
    (Event.letGo_moves (Event.onGuard _ fun g => g.onVacate x _) _))

theorem Event.handOver_moves (ev : Event) (x : Arm) (previous : Zone) (h : may .shrink) (j : may .join) :
    ev.guard.Moves may (ev.handOver x previous).guard := by
  unfold Event.handOver
  dsimp only
  refine .trans ?_ (Event.vacateProgress_moves _ x h)
  split
  · exact ev.complete_moves x h j
  · exact .refl _

theorem Event.endClaims_moves (ev : Event) (ks : List ClaimKey) (h : may .shrink) (j : may .join) :
    ev.guard.Moves may (ev.endClaims ks).1.guard := by
  induction ks generalizing ev with
  | nil => exact .refl _
  | cons k ks ih =>
    unfold Event.endClaims
    split
    · exact ih ev
    · split
      · exact .trans (Event.endHeld_moves (ev.post _) _ .missed h j) (ih _)
      · exact .trans (ev.leaveWaiting_moves _ _) (ih _)

end

/-! ## Retirement, flush, and the end of an event -/

/-- Every change that an event's operations make of an arm. -/
def anyChange : ArmChange → Prop := fun _ => True

theorem Event.retire_moves (ev : Event) (s : Nat) : ev.guard.Moves anyChange (ev.retire s).guard := by
  unfold Event.retire
  dsimp only
  refine .trans ?_ (Event.runEvaluation_moves _ trivial)
  simp only [Event.onGuard_guard, Event.post_guard]
  refine .trans ?_ (.of_arms (Guard.restartScrub_arms _))
  refine .trans ?_ (Event.settle_moves _ trivial)
  dsimp only
  refine .trans ?_ (Event.latchRevoked_moves _ _ trivial)
  refine .trans ?_ (Event.endClaims_moves _ _ trivial trivial)
  dsimp only [Event.onGuard_guard]
  refine .trans ?_ (.of_arms (Guard.retireSection_arm _ s))
  exact ev.readCells_moves _ _ trivial

theorem Event.flush_moves (ev : Event) (s : Nat) : ev.guard.Moves anyChange (ev.flush s).guard := by
  unfold Event.flush
  dsimp only
  refine .trans ?_ (Event.runEvaluation_moves _ trivial)
  simp only [Event.onGuard_guard, Event.post_guard]
  refine .trans ?_ (.of_arms (Guard.onSection_arm _ s _))
  refine .trans ?_ (Event.rewriteAll_moves _ _ _ trivial)
  simp only [Event.onGuard_guard]
  refine .trans ?_ (.of_arms (Guard.reindex_arm _ _))
  refine .trans ?_ (Event.latchRevoked_moves _ _ trivial)
  exact ev.endClaims_moves _ trivial trivial

theorem Event.dealWithSections_moves (n : Nat) (ev : Event) :
    ev.guard.Moves anyChange (ev.dealWithSections n).guard := by
  induction n generalizing ev with
  | zero => exact .refl _
  | succ n ih =>
    unfold Event.dealWithSections
    split
    · exact .refl _
    · refine .trans ?_ (ih _)
      split
      · exact .refl _
      · split
        · exact ev.retire_moves _
        · exact ev.flush_moves _

theorem Event.finish_moves (ev : Event) : ev.guard.Moves anyChange ev.finish.guard :=
  .trans (.trans (.trans (ev.evaluateIfCalled_moves trivial) (Event.dealWithSections_moves 8 ev.evaluateIfCalled.afterReply))
    (Event.endPlans_moves _)) (.of_arms (Event.endDraining_arm _))

end Sys2Proof.Machine


/-! # The stages of an accepted sample

An accepted SAMPLE changes its arm twice: when the intake and the calculator take it (`ArmState.heard`), and when the
monitor's verdict is recorded and latched (`ArmState.monitored`). Between the two and after them the shared operations alone
are at work. -/

namespace Sys2Proof.Machine

/-! ## Changes of one arm, one after the other -/

theorem Guard.onArm_onArm (g : Guard) (x : Arm) (f f' : ArmState → ArmState) :
    (g.onArm x f).onArm x f' = g.onArm x fun a => f' (f a) := by
  cases x <;> rfl

theorem Guard.onArm_congr {g : Guard} {x : Arm} {f f' : ArmState → ArmState} (h : f (g.arm x) = f' (g.arm x)) :
    g.onArm x f = g.onArm x f' := by
  cases x
  · exact congrArg (fun a => { g with a := a }) h
  · exact congrArg (fun a => { g with b := a }) h

theorem Guard.onArm_self {g : Guard} {x : Arm} {f : ArmState → ArmState} (h : f (g.arm x) = g.arm x) :
    g.onArm x f = g := by
  rw [Guard.onArm_congr (f' := id) h]
  cases x <;> rfl

/-! ## Sources raised and lowered -/

/-- A source put where it stands. -/
theorem Sources.put_has (s : Sources) (src : Source) : s.put src (s.has src) = s := by
  cases src with
  | escalated =>
    obtain ⟨-, -, -, -, -, -, -, -, e⟩ := s
    cases e <;> rfl
  | _ => rfl

/-- An arm with a source latched or asserted, or cleared or removed. -/
def ArmState.sourced (a : ArmState) (src : Source) (b : Bool) : ArmState :=
  { a with unit := { a.unit with sources := a.unit.sources.put src b } }

theorem Event.lower_guard (ev : Event) (x : Arm) (src : Source) :
    (ev.lower x src).guard = ev.guard.onArm x fun a => a.sourced src false := rfl

/-- Raised or not, the source ends up latched or asserted. -/
theorem Event.raise_guard (ev : Event) (x : Arm) (src : Source) :
    (ev.raise x src).guard = ev.guard.onArm x fun a => a.sourced src true := by
  unfold Event.raise
  split
  · rename_i h
    refine (Guard.onArm_self ?_).symm
    rw [ArmState.sourced, ← h, Sources.put_has]
  · rfl

theorem Event.raiseIf_guard (ev : Event) (x : Arm) (src : Source) (b : Bool) :
    (if b then ev.raise x src else ev).guard =
      ev.guard.onArm x fun a => a.sourced src (a.unit.sources.has src || b) := by
  cases b
  · refine (Guard.onArm_self ?_).symm
    rw [Bool.or_false, ArmState.sourced, Sources.put_has]
  · simpa using ev.raise_guard x src

theorem Event.setLive_guard (ev : Event) (x : Arm) (src : Source) (b : Bool) :
    (ev.setLive x src b).guard = ev.guard.onArm x fun a => a.sourced src b := by
  unfold Event.setLive
  cases b
  · exact ev.lower_guard x src
  · exact ev.raise_guard x src

/-! ## The intake and the calculator -/

/-- What an accepted sample counts (R23, R28, R32, R36). -/
def ArmState.counted (a : ArmState) (early : Bool) (lost clamped : Nat) : ArmState :=
  ((if early then (a.signalled .samplesAccepted 1).signalled .samplesEarly 1 else a.signalled .samplesAccepted 1).signalled
    .samplesLost lost).signalled .velocityClamped clamped

/-- An arm once its intake and its calculator have taken a sample (R22, R24, R29, R35). -/
def ArmState.heard (a : ArmState) (cfg : ConfigSet) (x : Arm) (now : Nat) (s : Sample) : ArmState :=
  let early := isEarly a.intake.lastTime now (cfg.arm x).tMin
  { a with
    intake := ⟨some s, some now, some s.sequence, .running, some (now + (cfg.arm x).tGap)⟩
    calculator := a.calculator.sample cfg x s
    unit := { a.unit with sources := { a.unit.sources with
      sampleEarly := early, disagree := s.disagrees (cfg.arm x), noPosition := false } }
    counters :=
      (a.counted early (samplesLost a.intake.lastSequence s.sequence) s.velocity.clampCount).counters }

/-- The event once the intake and the calculator are done. -/
def Event.heard (ev : Event) (x : Arm) (s : Sample) : Event := (ev.intake x s).calculate x s

theorem Event.heard_guard (ev : Event) (x : Arm) (s : Sample) :
    (ev.heard x s).guard = ev.guard.onArm x fun a => a.heard ev.guard.cfg x ev.guard.now s := by
  unfold Event.heard Event.calculate Event.intake
  dsimp only
  cases h : isEarly (ev.guard.arm x).intake.lastTime ev.guard.now (ev.guard.cfg.arm x).tMin
  all_goals
    simp only [Event.lower_guard, Event.signal_guard, Event.onGuard_guard, Guard.signal_eq, Event.setLive_guard,
      Guard.recordSample, Guard.timerFor, Guard.onArm_onArm, Guard.onArm_cfg, Guard.onArm_now, if_true, if_false,
      Bool.false_eq_true]
    refine Guard.onArm_congr ?_
    simp only [ArmState.heard, ArmState.counted, h]
    rfl

/-! ## The monitor -/

/-- An arm with a verdict recorded and its kinds latched (R50, R57). -/
def ArmState.monitored (a : ArmState) (v : Verdict) : ArmState :=
  { a with
    verdict := v
    unit := { a.unit with sources := { a.unit.sources with
      reach := a.unit.sources.reach || v.reach
      intrusion := a.unit.sources.intrusion || v.intrusion
      fenceEntry := a.unit.sources.fenceEntry || v.fenceEntry } } }

/-- The reads of the monitor: what they leave of the event, and the entries they deliver. -/
def Event.watched (ev : Event) (x : Arm) (s : Sample) : Event × List Entry :=
  (ev.heard x s).readCells .monitor ((ev.heard x s).guard.arm x).calculator.cells

/-- The verdict of a sample. -/
def Event.verdict (ev : Event) (x : Arm) (s : Sample) : Verdict := verdictOf x (ev.watched x s).2

/-- The event once the verdict is latched. -/
def Event.monitored (ev : Event) (x : Arm) (s : Sample) : Event := ((ev.heard x s).judge x).latchVerdict x

theorem Event.latchVerdict_guard (ev : Event) (x : Arm) :
    (ev.latchVerdict x).guard = ev.guard.onArm x fun a => a.monitored a.verdict := by
  unfold Event.latchVerdict
  dsimp only
  rw [Event.raiseIf_guard, Event.raiseIf_guard, Event.raiseIf_guard, Guard.onArm_onArm, Guard.onArm_onArm]
  exact Guard.onArm_congr rfl

theorem Event.judge_guard (ev : Event) (x : Arm) : (ev.judge x).guard =
    (ev.readCells .monitor (ev.guard.arm x).calculator.cells).1.guard.onArm x fun a =>
      { a with verdict := verdictOf x (ev.readCells .monitor (ev.guard.arm x).calculator.cells).2 } := rfl

theorem Event.monitored_guard (ev : Event) (x : Arm) (s : Sample) :
    (ev.monitored x s).guard = (ev.watched x s).1.guard.onArm x fun a => a.monitored (ev.verdict x s) := by
  unfold Event.monitored
  rw [Event.latchVerdict_guard, Event.judge_guard, Guard.onArm_onArm]
  rfl

theorem Event.watched_change (ev : Event) (x : Arm) (s : Sample) :
    Guard.Change (ev.heard x s).guard (ev.watched x s).1.guard := (ev.heard x s).readCells_change _ _

theorem Event.watched_moves {may : ArmChange → Prop} (ev : Event) (x : Arm) (s : Sample) (h : may .shrink) :
    (ev.heard x s).guard.Moves may (ev.watched x s).1.guard := (ev.heard x s).readCells_moves _ _ h

/-! ## The action unit, the handover and the evaluation -/

/-- The event once the level is computed and the entered flags are set. -/
def Event.leveled (ev : Event) (x : Arm) (s : Sample) : Event :=
  ((ev.monitored x s).settleLevel x).onGuard fun g => g.setEntered x

/-- The event once the handover is done. -/
def Event.handed (ev : Event) (x : Arm) (s : Sample) : Event :=
  (ev.leveled x s).handOver x (ev.guard.arm x).calculator.zone

theorem Event.acceptSample_eq (ev : Event) (x : Arm) (s : Sample) :
    ev.acceptSample x s = (ev.handed x s).evaluateIfCalled := rfl

theorem Guard.setEntered_change (g : Guard) (x : Arm) : Guard.Change g (g.setEntered x) :=
  .claims g _ fun c => by
    split
    · exact ⟨rfl, rfl, rfl, rfl, rfl, rfl, id⟩
    · exact c.keeps_refl

@[simp] theorem Guard.setEntered_arm (g : Guard) (x y : Arm) : (g.setEntered x).arm y = g.arm y := by
  cases y <;> rfl

theorem Event.handOver_change (ev : Event) (x : Arm) (previous : Zone) :
    Guard.Change ev.guard (ev.handOver x previous).guard := by
  unfold Event.handOver
  dsimp only
  refine .trans ?_ (Event.vacateProgress_change _ x)
  split
  · exact ev.complete_change x
  · exact .refl _

theorem Event.leveled_change (ev : Event) (x : Arm) (s : Sample) :
    Guard.Change (ev.monitored x s).guard (ev.leveled x s).guard :=
  .trans (Event.settleLevel_change _ x) (Guard.setEntered_change _ x)

theorem Event.leveled_moves {may : ArmChange → Prop} (ev : Event) (x : Arm) (s : Sample) (h : may .act) :
    (ev.monitored x s).guard.Moves may (ev.leveled x s).guard :=
  .trans (Event.settleLevel_moves _ x h) (.of_arms (Guard.setEntered_arm _ x))

theorem Event.handed_change (ev : Event) (x : Arm) (s : Sample) :
    Guard.Change (ev.leveled x s).guard (ev.handed x s).guard := Event.handOver_change _ x _

theorem Event.acceptSample_change (ev : Event) (x : Arm) (s : Sample) :
    Guard.Change (ev.monitored x s).guard (ev.acceptSample x s).guard :=
  .trans (ev.leveled_change x s) (.trans (ev.handed_change x s) (Event.evaluateIfCalled_change _))

/-! ## What the two stages leave of the sample's arm -/

section
variable (ev : Event) (x : Arm) (s : Sample)

theorem Event.heard_arm : (ev.heard x s).guard.arm x = (ev.guard.arm x).heard ev.guard.cfg x ev.guard.now s := by
  rw [Event.heard_guard, Guard.arm_onArm]

theorem Event.monitored_arm :
    (ev.monitored x s).guard.arm x = ((ev.watched x s).1.guard.arm x).monitored (ev.verdict x s) := by
  rw [Event.monitored_guard, Guard.arm_onArm]

theorem Event.monitored_intake : ((ev.monitored x s).guard.arm x).intake =
    ⟨some s, some ev.guard.now, some s.sequence, .running, some (ev.guard.now + (ev.guard.cfg.arm x).tGap)⟩ := by
  have kept := ((ev.watched_change x s).armKeeps x).1
  rw [Event.heard_arm] at kept
  rw [Event.monitored_arm]
  exact kept

theorem Event.monitored_calculator : ((ev.monitored x s).guard.arm x).calculator =
    (ev.guard.arm x).calculator.sample ev.guard.cfg x s := by
  have kept := ((ev.watched_change x s).armKeeps x).2.1
  rw [Event.heard_arm] at kept
  rw [Event.monitored_arm]
  exact kept

/-- Reads leave the action unit alone. -/
theorem Event.watched_unit :
    ((ev.watched x s).1.guard.arm x).unit = ((ev.guard.arm x).heard ev.guard.cfg x ev.guard.now s).unit := by
  rw [← Event.heard_arm]
  exact (ev.watched_moves (may := (· = .shrink)) x s rfl x).unit (by simp)

theorem Event.monitored_unit : ((ev.monitored x s).guard.arm x).unit =
    (((ev.guard.arm x).heard ev.guard.cfg x ev.guard.now s).monitored (ev.verdict x s)).unit := by
  rw [Event.monitored_arm]
  simp only [ArmState.monitored, Event.watched_unit]

end

end Sys2Proof.Machine


/-! # Zone state, NO_POSITION, vacate set and gap state (O57)

`Guard.Zoned` says of two guards that an arm in order in the first is in order in the second. The shared operations are so by
what they keep (`Guard.Change`) and by what they do to the vacate set (`Guard.Moves`); an accepted sample, a gap, RESTART and
CONFIGURE set the zone state or the gap state themselves. -/

namespace Sys2Proof.Machine

/-! ## The relation -/

def Guard.Zoned (g h : Guard) : Prop := ∀ x, (g.arm x).zoneInOrder → (h.arm x).zoneInOrder

theorem Guard.Zoned.refl (g : Guard) : g.Zoned g := fun _ h => h

theorem Guard.Zoned.trans {g h k : Guard} (a : g.Zoned h) (b : h.Zoned k) : g.Zoned k := fun x z => b x (a x z)

/-- What `ArmState.zoneInOrder` looks at. -/
def ArmState.zoneView (a : ArmState) : Bool × Bool × Calculator × CellSet × GapState :=
  (a.unit.sources.noPosition, a.unit.sources.sampleGap, a.calculator, a.vacate, a.intake.gap)

theorem ArmState.zoneInOrder_of_view {a b : ArmState} (e : b.zoneView = a.zoneView) (h : a.zoneInOrder) :
    b.zoneInOrder := by
  simp only [ArmState.zoneView, Prod.mk.injEq] at e
  obtain ⟨noPosition, sampleGap, calculator, vacate, gap⟩ := e
  rw [ArmState.zoneInOrder, noPosition, sampleGap, calculator, vacate, gap]
  exact h

theorem Guard.Zoned.of_view {g h : Guard} (e : ∀ x, (h.arm x).zoneView = (g.arm x).zoneView) : g.Zoned h :=
  fun x => ArmState.zoneInOrder_of_view (e x)

theorem Guard.Zoned.of_arms {g h : Guard} (e : ∀ x, h.arm x = g.arm x) : g.Zoned h := .of_view fun x => by rw [e]

/-- A change of one arm in what the order of its zone does not look at. -/
theorem Guard.Zoned.onArm (g : Guard) (x : Arm) {f : ArmState → ArmState}
    (h : (f (g.arm x)).zoneView = (g.arm x).zoneView) : g.Zoned (g.onArm x f) := by
  refine .of_view fun y => ?_
  rw [Guard.arm_onArm_eq]
  split
  · rename_i e
    exact e ▸ h
  · rfl

/-- The shared operations keep what the order looks at, but for a vacate set that grows while the arm is not CLEAR. -/
theorem Guard.Zoned.of_change {may : ArmChange → Prop} {g h : Guard} (c : Guard.Change g h) (m : g.Moves may h) :
    g.Zoned h := by
  rintro x ⟨unknown, outside, clear, gap⟩
  obtain ⟨intake, calculator, -, -, sources, -⟩ := c.armKeeps x
  have noPosition := congrArg Sources.noPosition sources
  have sampleGap := congrArg Sources.sampleGap sources
  refine ⟨?_, ?_, fun z => (m x).vacate_clear (calculator ▸ z) (clear (calculator ▸ z)), ?_⟩
  · rw [noPosition, calculator]
    exact unknown
  · rw [calculator]
    exact outside
  · rw [sampleGap, intake]
    exact gap

theorem Guard.Zoned.changeLevel (g : Guard) (x : Arm) (l : Level) : g.Zoned (g.changeLevel x l) :=
  .of_change (.changeLevel g x l) (g.changeLevel_moves (may := anyChange) x l trivial)

theorem Event.finish_zoned (ev : Event) : ev.guard.Zoned ev.finish.guard := .of_change ev.finish_change ev.finish_moves

theorem Event.settleLevel_zoned (ev : Event) (x : Arm) : ev.guard.Zoned (ev.settleLevel x).guard :=
  .of_change (ev.settleLevel_change x) (ev.settleLevel_moves (may := anyChange) x trivial)

theorem Event.readCells_zoned (ev : Event) (who : Reader) (cells : CellSet) :
    ev.guard.Zoned (ev.readCells who cells).1.guard :=
  .of_change (ev.readCells_change who cells) (ev.readCells_moves (may := anyChange) who cells trivial)

theorem Event.settle_zoned (ev : Event) : ev.guard.Zoned ev.settle.guard :=
  .of_change ev.settle_change (ev.settle_moves (may := anyChange) trivial)

theorem Event.rewriteAll_zoned (ev : Event) (cause : PoisonCause) (cells : CellSet) :
    ev.guard.Zoned (ev.rewriteAll cause cells).guard :=
  .of_change (ev.rewriteAll_change cause cells) (ev.rewriteAll_moves (may := anyChange) cause cells trivial)

/-! ## CONFIGURE and RESTART -/

/-- A box placed on a new grid leaves the zone state and, outside the guarded volume, an empty footprint (R47). -/
theorem Calculator.replace_zone (k : Calculator) (c : ConfigSet) : (k.replace c).zone = k.zone := by
  unfold Calculator.replace
  split <;> rfl

theorem Calculator.replace_footprint {k : Calculator} (c : ConfigSet) (h : k.footprint = none) (z : k.zone ≠ .inside) :
    (k.replace c).footprint = none := by
  unfold Calculator.replace
  split
  · exact h
  · exact if_neg z

theorem Guard.placed_zoned (g : Guard) (c : ConfigSet) : g.Zoned (g.placed c) := by
  rintro x ⟨unknown, outside, -, gap⟩
  rw [Guard.placed_arm]
  refine ⟨?_, fun z => ?_, fun _ => rfl, gap⟩
  · dsimp only
    rw [Calculator.replace_zone]
    exact unknown
  · dsimp only at z ⊢
    rw [Calculator.replace_zone] at z
    exact Calculator.replace_footprint c (outside z) z

theorem Event.actionsChanged_zoned (ev : Event) (old : ConfigSet) (x : Arm) :
    ev.guard.Zoned (ev.actionsChanged old x).guard := by
  unfold Event.actionsChanged
  split
  · exact .refl _
  · exact ev.settleLevel_zoned x

theorem Guard.applyConfig_zoned (g : Guard) (c : ConfigSet) : g.Zoned (g.applyConfig c).guard := by
  unfold Guard.applyConfig
  dsimp only
  refine .trans ?_ (.trans (Event.actionsChanged_zoned _ g.cfg .A) (Event.actionsChanged_zoned _ g.cfg .B))
  rw [Guard.event_guard]
  split
  · exact .of_arms fun x => by cases x <;> rfl
  · rw [Guard.changeGeometry_eq]
    exact .trans (g.placed_zoned c) (.of_arms fun x => by rw [Guard.restartScrub_arms, Guard.reindex_arm])

theorem Guard.serveConfigure_zoned (g : Guard) (p : List Byte) : g.Zoned (g.serveConfigure p).1.guard := by
  unfold Guard.serveConfigure
  split
  · exact .refl g
  · dsimp only
    split
    · exact .refl g
    · split
      · exact .refl g
      · split
        · exact .refl g
        · exact g.applyConfig_zoned _

/-- An arm with the intake, the calculator, the sources and the vacate set of power-on is in order. -/
theorem ArmState.restarted_zoneInOrder (a : ArmState) : a.restarted.zoneInOrder :=
  ⟨⟨fun _ => rfl, fun _ => rfl⟩, fun _ => rfl, fun _ => rfl, fun h => by cases h⟩

theorem ArmState.initial_zoneInOrder : ArmState.initial.zoneInOrder :=
  ⟨⟨fun _ => rfl, fun _ => rfl⟩, fun _ => rfl, fun _ => rfl, fun h => by cases h⟩

theorem Guard.restarted_zoned (g : Guard) : g.Zoned g.restarted := fun x _ => by
  cases x
  · exact ArmState.zoneInOrder_of_view (a := g.a.restarted) rfl (ArmState.restarted_zoneInOrder _)
  · exact ArmState.zoneInOrder_of_view (a := g.b.restarted) rfl (ArmState.restarted_zoneInOrder _)

theorem Guard.serveRestart_zoned (g : Guard) : g.Zoned g.serveRestart.1.guard := by
  obtain ⟨ev, hev, e⟩ := g.serveRestart_guard
  rw [e, Event.post_guard]
  refine .trans ?_ (ev.rewriteAll_zoned _ _)
  rw [hev]
  exact g.restarted_zoned

/-! ## The other requests of the supervisor -/

theorem Guard.enterGuard_zoned (g : Guard) : g.Zoned g.enterGuard.1.guard := .of_arms fun x => by cases x <;> rfl

theorem Guard.serveStart_zoned (g : Guard) : g.Zoned g.serveStart.1.guard := by
  unfold Guard.serveStart
  split
  · exact .refl g
  · exact g.enterGuard_zoned
  · split
    · exact .refl g
    · exact g.enterGuard_zoned

theorem Event.withdrawAll_zoned (ev : Event) (p : Claim → Bool) : ev.guard.Zoned (ev.withdrawAll p).guard :=
  .of_change (ev.withdrawAll_change p) (ev.withdrawAll_moves (may := anyChange) p)

theorem Guard.serveStop_zoned (g : Guard) : g.Zoned g.serveStop.1.guard := by
  unfold Guard.serveStop
  split
  · exact .refl g
  · exact .trans (g.event.withdrawAll_zoned Claim.isPlan) (.of_arms fun x => by cases x <;> rfl)

theorem Event.addFences_zoned (ev : Event) (cells : CellSet) : ev.guard.Zoned (ev.addFences cells).guard := by
  rw [Event.addFences_eq, Event.fencesChanged_eq]
  exact .trans (.of_arms (ev.fenced_refences cells).arm) (((ev.fenced cells).touching cells).settle_zoned)

theorem Event.dropFences_zoned (ev : Event) (cells : CellSet) : ev.guard.Zoned (ev.dropFences cells).guard := by
  rw [Event.dropFences_eq, Event.fencesChanged_eq]
  exact .trans (.of_arms (ev.unfenced_refences cells).arm) (((ev.unfenced cells).touching cells).settle_zoned)

theorem Guard.serveFence_zoned (g : Guard) (p : List Byte) : g.Zoned (g.serveFence p).1.guard := by
  unfold Guard.serveFence
  split
  · exact .refl g
  · exact .trans (g.event.readCells_zoned _ _) (Event.addFences_zoned _ _)

theorem Guard.serveUnfence_zoned (g : Guard) (p : List Byte) : g.Zoned (g.serveUnfence p).1.guard := by
  unfold Guard.serveUnfence
  split
  · exact .refl g
  · exact .trans (g.event.readCells_zoned _ _) (Event.dropFences_zoned _ _)

theorem ArmState.setSlot_zoneView (a : ArmState) (i : SlotIx) (s : Slot) : (a.setSlot i s).zoneView = a.zoneView := by
  cases i <;> rfl

theorem Guard.serveLoadPlan_zoned (g : Guard) (p : List Byte) : g.Zoned (g.serveLoadPlan p).1.guard := by
  unfold Guard.serveLoadPlan
  dsimp only
  split
  · split
    · exact .refl g
    · split
      · exact .refl g
      · split
        · exact .refl g
        · exact .onArm g _ (ArmState.setSlot_zoneView _ _ _)
  · exact .refl g

theorem ArmState.activate_zoneView (a : ArmState) (i : SlotIx) : (a.activate i).zoneView = a.zoneView := by
  unfold ArmState.activate
  split
  · exact a.setSlot_zoneView _ _
  · rfl

theorem ArmState.finishSlot_zoneView (a : ArmState) (i : SlotIx) (p : Plan) (why : EndReason) :
    (a.finishSlot i p why).zoneView = a.zoneView :=
  (ArmState.activate_zoneView _ _).trans (a.setSlot_zoneView _ _)

theorem Event.endPlans_zoned (ev : Event) : ev.guard.Zoned ev.endPlans.guard :=
  .of_change ev.endPlans_change (ev.endPlans_moves (may := anyChange))

theorem Guard.dropActive_zoned (g : Guard) (x : Arm) : g.Zoned (g.dropActive x).1.guard := by
  unfold Guard.dropActive
  split
  · exact .refl g
  · rename_i i p _
    dsimp only
    rw [Event.callEvaluation_guard]
    refine .trans (g.event.withdrawAll_zoned fun c => c.fromSlot x i) (.trans ?_ (Event.endPlans_zoned _))
    refine .onArm _ x ?_
    split
    · exact ArmState.finishSlot_zoneView _ _ _ _
    · rfl

theorem Guard.dropLoaded_zoned (g : Guard) (x : Arm) : g.Zoned (g.dropLoaded x).1.guard := by
  unfold Guard.dropLoaded
  split
  · exact .refl g
  · exact .onArm g _ (ArmState.setSlot_zoneView _ _ _)

theorem Guard.serveDropPlan_zoned (g : Guard) (p : List Byte) : g.Zoned (g.serveDropPlan p).1.guard := by
  unfold Guard.serveDropPlan
  split
  · exact g.dropActive_zoned _
  · exact g.dropLoaded_zoned _
  · exact .refl g

theorem Guard.addClaim_zoned (g : Guard) (c : Claim) : g.Zoned (g.addClaim c) :=
  .trans (.onArm g c.arm (f := fun a => { a with nextNumber := c.number + 1 }) rfl) (.of_arms fun x => by cases x <;> rfl)

theorem Event.form_zoned (ev : Event) (cells : CellSet) : ev.guard.Zoned (ev.form cells).1.guard :=
  ev.readCells_zoned .arbiter cells

theorem Guard.serveClaimFor_zoned (g : Guard) (p : List Byte) : g.Zoned (g.serveClaimFor p).1.guard := by
  unfold Guard.serveClaimFor
  dsimp only
  split
  · split
    · exact .refl g
    · split
      · exact g.event.form_zoned _
      · exact .trans (g.event.form_zoned _) (Guard.addClaim_zoned _ _)
  · exact .refl g

/-- REVOKED raised: neither NO_POSITION nor SAMPLE_GAP. -/
theorem Event.raiseRevoked_zoned (ev : Event) (x : Arm) : ev.guard.Zoned (ev.raise x .revoked).guard :=
  .of_change (ev.raiseRevoked_change x) (ev.raise_moves (may := anyChange) x .revoked trivial)

theorem Event.endClaims_zoned (ev : Event) (ks : List ClaimKey) : ev.guard.Zoned (ev.endClaims ks).1.guard :=
  .of_change (ev.endClaims_change ks) (ev.endClaims_moves (may := anyChange) ks trivial trivial)

theorem Guard.serveRevoke_zoned (g : Guard) (p : List Byte) : g.Zoned (g.serveRevoke p).1.guard := by
  unfold Guard.serveRevoke
  split
  · exact .refl g
  · rename_i x _
    refine .trans (g.event.endClaims_zoned (g.keysWhere fun c => c.arm = x)) ?_
    dsimp only
    rw [Event.callEvaluation_guard]
    split
    · exact .trans (Event.raiseRevoked_zoned _ _) (Event.settleLevel_zoned _ _)
    · exact .refl _

/-- A latched source cleared: NO_POSITION is none, and SAMPLE_GAP may be. -/
theorem Event.lower_zoned (ev : Event) (x : Arm) {src : Source} (h : src.isLatched = true) :
    ev.guard.Zoned (ev.lower x src).guard := by
  rintro y ⟨unknown, outside, clear, gap⟩
  rw [Event.lower_guard, Guard.arm_onArm_eq]
  split
  · refine ⟨?_, outside, clear, fun latched => gap ?_⟩
    · cases src with
      | sampleEarly => cases h
      | disagree => cases h
      | noPosition => cases h
      | _ => exact unknown
    · cases src with
      | sampleGap => cases latched
      | _ => exact latched
  · exact ⟨unknown, outside, clear, gap⟩

theorem Event.lowerAll_zoned (srcs : List Source) (h : ∀ src ∈ srcs, src.isLatched = true) (ev : Event) (x : Arm) :
    ev.guard.Zoned (srcs.foldl (fun ev src => ev.lower x src) ev).guard := by
  induction srcs generalizing ev with
  | nil => exact .refl _
  | cons src srcs ih =>
    exact .trans (ev.lower_zoned x (h src List.mem_cons_self)) (ih (fun s hs => h s (List.mem_cons_of_mem _ hs)) _)

theorem Guard.serveClearFaults_zoned (g : Guard) (p : List Byte) : g.Zoned (g.serveClearFaults p).1.guard := by
  unfold Guard.serveClearFaults
  split
  · exact .refl g
  · refine .trans (Event.lowerAll_zoned _ (fun src hs => ?_) g.event _) (Event.settleLevel_zoned _ _)
    have named := (Bool.and_eq_true_iff.1 (List.mem_filter.1 hs).2).1
    simp only [Sources.namedBy, Bool.and_eq_true] at named
    exact named.1.2

theorem Guard.serveGetRow_zoned (g : Guard) (p : List Byte) : g.Zoned (g.serveGetRow p).1.guard := by
  unfold Guard.serveGetRow
  dsimp only
  split
  · exact .refl g
  · exact g.event.readCells_zoned _ _

theorem Guard.serveSetCounters_zoned (g : Guard) (p : List Byte) : g.Zoned (g.serveSetCounters p).1.guard := by
  unfold Guard.serveSetCounters
  split
  · exact .refl g
  · split
    · exact .refl g
    · exact .onArm g _ rfl

/-! ## SAMPLE -/

/-- A sample leaves the zone state CLEAR or INSIDE, the footprint empty unless INSIDE (R44, R45). -/
theorem Calculator.sample_zone (k : Calculator) (c : ConfigSet) (x : Arm) (s : Sample) :
    (k.sample c x s).zone ≠ .unknown ∧ ((k.sample c x s).zone ≠ .inside → (k.sample c x s).footprint = none) := by
  unfold Calculator.sample
  dsimp only
  split
  · cases (stoppingBox (c.arm x) s).cellRange c <;> simp
  · simp

/-- Vacate progress with an empty footprint lets every vacating cell go (R94). -/
theorem Event.vacateProgress_clear (ev : Event) (x : Arm) (h : (ev.guard.arm x).calculator.footprint = none) :
    ((ev.vacateProgress x).guard.arm x).vacate = [] := by
  unfold Event.vacateProgress Event.letGo
  dsimp only
  rw [Event.callEvaluation_guard, Event.onGuard_guard, Guard.reindex_arm, Event.onGuard_guard, Guard.onVacate,
    Guard.arm_onArm]
  generalize hr : (ev.readCells .handover _).1 = read
  have same : (read.guard.arm x).calculator = (ev.guard.arm x).calculator :=
    hr ▸ ((ev.readCells_change _ _).armKeeps x).2.1
  dsimp only
  rw [same, h]
  simp [covered, minusCells]

theorem Event.handed_vacate (ev : Event) (x : Arm) (s : Sample)
    (h : ((ev.guard.arm x).calculator.sample ev.guard.cfg x s).zone = .clear) :
    ((ev.handed x s).guard.arm x).vacate = [] := by
  have outside := ((ev.guard.arm x).calculator.sample_zone ev.guard.cfg x s).2 (by rw [h]; decide)
  rw [← Event.monitored_calculator, ← ((ev.leveled_change x s).armKeeps x).2.1] at outside
  refine Event.vacateProgress_clear _ x ?_
  split
  · rw [((Event.complete_change _ x).armKeeps x).2.1]
    exact outside
  · exact outside

/-- The sample's arm is in order whatever it was before. -/
theorem Event.acceptSample_zoneInOrder (ev : Event) (x : Arm) (s : Sample) :
    ((ev.acceptSample x s).guard.arm x).zoneInOrder := by
  obtain ⟨known, outside⟩ := (ev.guard.arm x).calculator.sample_zone ev.guard.cfg x s
  obtain ⟨intake, calculator, -, -, sources, -⟩ := (ev.acceptSample_change x s).armKeeps x
  rw [Event.monitored_intake] at intake
  rw [Event.monitored_calculator] at calculator
  rw [Event.monitored_unit] at sources
  have noPosition : ((ev.acceptSample x s).guard.arm x).unit.sources.noPosition = false :=
    congrArg Sources.noPosition sources
  refine ⟨?_, ?_, fun z => ?_, fun _ => ?_⟩
  · rw [noPosition, calculator]
    simp [known]
  · rw [calculator]
    exact outside
  · rw [calculator] at z
    have handed : ((ev.handed x s).guard.arm x).calculator.zone = .clear := by
      rw [((ev.handed_change x s).armKeeps x).2.1, ((ev.leveled_change x s).armKeeps x).2.1, Event.monitored_calculator]
      exact z
    exact ((ev.handed x s).evaluateIfCalled_moves (may := anyChange) trivial x).vacate_clear handed (ev.handed_vacate x s z)
  · rw [intake]
    exact GapState.noConfusion

/-- The other arm is left to the shared operations. -/
theorem Event.acceptSample_zoned (ev : Event) (x : Arm) (s : Sample) :
    ev.guard.Zoned (ev.acceptSample x s).guard := by
  intro y z
  by_cases e : x = y
  · exact e ▸ ev.acceptSample_zoneInOrder x s
  · have heard : (ev.heard x s).guard.arm y = ev.guard.arm y := by
      rw [Event.heard_guard, Guard.arm_onArm_eq, if_neg e]
    have monitored : (ev.monitored x s).guard.arm y = (ev.watched x s).1.guard.arm y := by
      rw [Event.monitored_guard, Guard.arm_onArm_eq, if_neg e]
    have watched : ((ev.watched x s).1.guard.arm y).zoneInOrder :=
      Guard.Zoned.of_change (ev.watched_change x s) (ev.watched_moves (may := anyChange) x s trivial) y (heard ▸ z)
    have moves : (ev.monitored x s).guard.Moves anyChange (ev.acceptSample x s).guard :=
      .trans (ev.leveled_moves x s trivial)
        (.trans (Event.handOver_moves _ x _ trivial trivial) (Event.evaluateIfCalled_moves _ trivial))
    exact Guard.Zoned.of_change (ev.acceptSample_change x s) moves y (monitored ▸ watched)

theorem Guard.serveSample_zoned (g : Guard) (x : Arm) (p : List Byte) : g.Zoned (g.serveSample x p).1.guard := by
  unfold Guard.serveSample
  split
  · exact .refl g
  · exact g.event.acceptSample_zoned x _

/-! ## The other requests of an arm -/

theorem Event.issue_zoned (ev : Event) (x : Arm) (i : SlotIx) (p : Plan) : ev.guard.Zoned (ev.issue x i p).guard := by
  unfold Event.issue
  dsimp only
  split
  · exact .onArm ev.guard x (ArmState.finishSlot_zoneView _ _ _ _)
  · exact .onArm ev.guard x (ArmState.setSlot_zoneView _ _ _)

theorem Event.tally_zoned (ev : Event) (x : Arm) (i : SlotIx) (o : EntryOutcome) :
    ev.guard.Zoned (ev.tally x i o).guard := .of_change (ev.tally_change x i o) (ev.tally_moves (may := anyChange) x i o)

theorem Guard.requestEntry_zoned (g : Guard) (x : Arm) (i : SlotIx) (p : Plan) (e : PlanEntry) :
    g.Zoned (g.requestEntry x i p e).1.guard := by
  unfold Guard.requestEntry
  dsimp only
  split
  · exact g.event.form_zoned _
  · refine .trans (g.event.form_zoned (e.shape.cells g.cfg)) ?_
    split
    · exact .trans (Event.issue_zoned _ _ _ _) (Event.tally_zoned _ _ _ _)
    · exact .trans (Event.issue_zoned _ _ _ _) (Guard.addClaim_zoned _ _)

theorem Guard.serveRequest_zoned (g : Guard) (x : Arm) : g.Zoned (g.serveRequest x).1.guard := by
  unfold Guard.serveRequest
  split
  · exact .refl g
  · split
    · exact .refl g
    · split
      · exact .refl g
      · split
        · exact .refl g
        · split
          · exact .refl g
          · exact g.requestEntry_zoned _ _ _ _

theorem Guard.serveSkip_zoned (g : Guard) (x : Arm) : g.Zoned (g.serveSkip x).1.guard := by
  unfold Guard.serveSkip
  split
  · exact .refl g
  · split
    · exact .refl g
    · exact .trans (g.event.issue_zoned _ _ _) (Event.tally_zoned _ _ _ _)

theorem Guard.serveRelease_zoned (g : Guard) (x : Arm) (p : List Byte) : g.Zoned (g.serveRelease x p).1.guard := by
  unfold Guard.serveRelease
  dsimp only
  split
  · exact .refl g
  · split
    · exact .refl g
    · exact .of_change (g.event.endHeld_change _ _) (g.event.endHeld_moves (may := anyChange) _ _ trivial trivial)

theorem Guard.serve_zoned (g : Guard) (l : Link) (kind : Byte) (p : List Byte) : g.Zoned (g.serve l kind p).1.guard :=
  Guard.serve_cases (Q := fun ev => g.Zoned ev.guard) g l kind p (.refl g) (g.serveConfigure_zoned p)
    g.serveStart_zoned g.serveStop_zoned g.serveRestart_zoned (g.serveFence_zoned p) (g.serveUnfence_zoned p)
    (g.serveLoadPlan_zoned p) (g.serveDropPlan_zoned p) (g.serveClaimFor_zoned p) (g.serveRevoke_zoned p)
    (g.serveClearFaults_zoned p) (g.event.readCells_zoned .report g.cfg.gridCells) (g.serveGetRow_zoned p)
    (g.serveSetCounters_zoned p)

theorem Guard.serveArm_zoned (g : Guard) (x : Arm) (kind : Byte) (p : List Byte) :
    g.Zoned (g.serveArm x kind p).1.guard :=
  Guard.serveArm_cases (Q := fun ev => g.Zoned ev.guard) g x kind p (.refl g) (.onArm g x rfl) (g.serveSample_zoned x p)
    (g.serveRequest_zoned x) (g.serveSkip_zoned x) (g.serveRelease_zoned x p)

/-! ## Timers, scrub and power -/

/-- An arm whose gap timer has expired (R25). -/
def ArmState.lapsed (a : ArmState) : ArmState :=
  { a with
    intake := { a.intake with gap := .lapsed, gapTimer := none }
    unit := { a.unit with sources := { a.unit.sources with sampleGap := true } } }

/-- The event of a gap before the level is computed. -/
def Guard.gapLatched (g : Guard) (x : Arm) : Event :=
  ((g.quietEvent.raise x .sampleGap).signal x .gaps 1).onGuard fun g =>
    g.onArm x fun a => { a with intake := { a.intake with gap := .lapsed, gapTimer := none } }

theorem Guard.gapExpiry_eq (g : Guard) (x : Arm) : g.gapExpiry x = (g.gapLatched x).settleLevel x := rfl

theorem Guard.gapLatched_guard (g : Guard) (x : Arm) :
    (g.gapLatched x).guard = (g.onArm x ArmState.lapsed).onArm x fun a => a.signalled .gaps 1 := by
  unfold Guard.gapLatched
  rw [Event.onGuard_guard, Event.signal_guard, Guard.signal_eq, Event.raise_guard, Guard.onArm_onArm, Guard.onArm_onArm,
    Guard.onArm_onArm]
  rfl

theorem ArmState.lapsed_zoneInOrder {a : ArmState} (h : a.zoneInOrder) : a.lapsed.zoneInOrder := by
  obtain ⟨unknown, outside, clear, -⟩ := h
  exact ⟨unknown, outside, clear, fun _ => GapState.noConfusion⟩

theorem Guard.gapExpiry_zoned (g : Guard) (x : Arm) : g.Zoned (g.gapExpiry x).guard := by
  rw [Guard.gapExpiry_eq]
  refine .trans ?_ (Event.settleLevel_zoned _ x)
  rw [Guard.gapLatched_guard]
  refine .trans (fun y z => ?_) (.onArm _ x rfl)
  rw [Guard.arm_onArm_eq]
  split
  · exact ArmState.lapsed_zoneInOrder z
  · exact z

/-- A change of the action unit that leaves the sources. -/
theorem Guard.Zoned.onUnit (g : Guard) (x : Arm) {f : ActionUnit → ActionUnit} (h : ∀ u, (f u).sources = u.sources) :
    g.Zoned (g.onUnit x f) :=
  .onArm g x (by simp only [ArmState.zoneView, h])

theorem Guard.followLines_zoned (g : Guard) (x : Arm) : g.Zoned (g.followLines x) := .onUnit g x fun _ => rfl

theorem Guard.shorted_zoned (g : Guard) (x : Arm) (line : PermitName) (overheats : Bool) :
    g.Zoned (g.onUnit x fun u => { u with lines := u.lines.on line fun p => p.shorted overheats }) :=
  .onUnit g x fun _ => rfl

theorem Guard.slowExpiry_zoned (g : Guard) (x : Arm) : g.Zoned (g.slowExpiry x).guard := by
  have stopped : g.Zoned (g.onUnit x fun u => { u with slowTimer := none }) := .onUnit g x fun _ => rfl
  unfold Guard.slowExpiry
  dsimp only
  split
  · refine .trans ?_ (Event.settleLevel_zoned _ x)
    exact stopped.trans (.onArm _ x rfl)
  · exact stopped

theorem Guard.holdExpiry_zoned (g : Guard) (x : Arm) : g.Zoned (g.holdExpiry x).guard := by
  have stopped : g.Zoned (g.onUnit x fun u => { u with holdTimer := none }) := .onUnit g x fun _ => rfl
  unfold Guard.holdExpiry
  dsimp only
  split
  · refine .trans ?_ (Event.settleLevel_zoned _ x)
    exact stopped.trans (.onArm _ x rfl)
  · exact stopped

theorem Guard.advanceScrub_arm (g : Guard) (x : Arm) : g.advanceScrub.arm x = g.arm x := by
  unfold Guard.advanceScrub
  dsimp only
  split <;> cases x <;> rfl

theorem Guard.visit_zoned (g : Guard) : g.Zoned g.visit.guard :=
  .trans (.of_change (g.quietEvent.readCell_change .scrub _) (g.quietEvent.readCell_moves (may := anyChange) .scrub _ trivial))
    (.of_arms (Guard.advanceScrub_arm _))

theorem Guard.waitStep_zoned (g : Guard) (x : Arm) : g.Zoned (g.waitStep x) := by
  unfold Guard.waitStep
  split
  · exact .refl g
  · exact .trans (.trans (.onArm g x rfl) (.onArm _ x rfl)) (.onArm _ x rfl)

theorem Guard.restraintStep_zoned (g : Guard) (x : Arm) : g.Zoned (g.restraintStep x) := by
  unfold Guard.restraintStep
  split
  · exact .refl g
  · exact .onArm g x rfl

theorem Guard.tick_zoned (g : Guard) : g.Zoned g.tick := by
  unfold Guard.tick
  dsimp only
  split
  · exact .of_arms fun x => by cases x <;> rfl
  · have a := (g.restraintStep_zoned .A).trans (Guard.waitStep_zoned _ .A)
    have b := (a.trans (Guard.restraintStep_zoned _ .B)).trans (Guard.waitStep_zoned _ .B)
    exact b.trans (.of_arms fun x => by cases x <;> rfl)

theorem Guard.leaveInit_zoned (g : Guard) : g.Zoned g.leaveInit := by
  unfold Guard.leaveInit Guard.levelsFromSources
  dsimp only
  refine .trans (.trans (.trans ?_ (.changeLevel _ _ _)) (.changeLevel _ _ _)) (.of_arms (Guard.restartScrub_arms _))
  exact .of_arms fun x => by cases x <;> rfl

theorem Guard.cutLines_zoned (g : Guard) : g.Zoned g.cutLines :=
  .trans (h := { g with linesCut := true }) (.of_arms fun x => by cases x <;> rfl)
    (.trans (Guard.followLines_zoned _ .A) (Guard.followLines_zoned _ .B))

/-! ## Every step -/

theorem Guard.Kept.of_zoned : Guard.Kept fun g => ∀ x, (g.arm x).zoneInOrder where
  powerOn _ _ x := by cases x <;> exact ArmState.initial_zoneInOrder
  permitLoss g h x := Guard.Zoned.trans g.cutLines_zoned (.of_arms fun x => by cases x <;> rfl) x (h x)
  logicLoss g h x := Guard.Zoned.trans g.cutLines_zoned (.of_arms fun x => by cases x <;> rfl) x (h x)
  shorted g x line overheats h y := g.shorted_zoned x line overheats y (h y)
  initEnd g _ h x := Guard.Zoned.trans (.trans (g.quietEvent.rewriteAll_zoned .init storeCells) (Guard.leaveInit_zoned _))
    (Event.finish_zoned g.endInit) x (h x)
  serve g l kind p h x := (g.serve_zoned l kind p).trans (Event.finish_zoned _) x (h x)
  serveArm g x kind p _ h y := (g.serveArm_zoned x kind p).trans (Event.finish_zoned _) y (h y)
  gapExpiry g x _ h y := (g.gapExpiry_zoned x).trans (Event.finish_zoned _) y (h y)
  agingExpiry g _ c _ _ h x := Guard.Zoned.trans (.of_arms fun x => by cases x <;> rfl)
    (Event.finish_zoned (g.agingExpiry c.key)) x (h x)
  timeoutExpiry g _ c _ _ h x := Guard.Zoned.trans (.of_change (g.quietEvent.bounce_change c .timeout)
    (g.quietEvent.leaveWaiting_moves (may := anyChange) c _)) (Event.finish_zoned _) x (h x)
  slowExpiry g x _ h y := (g.slowExpiry_zoned x).trans (Event.finish_zoned _) y (h y)
  holdExpiry g x _ h y := (g.holdExpiry_zoned x).trans (Event.finish_zoned _) y (h y)
  leak g h x := Guard.Zoned.of_arms (h := g.leak) (fun x => by cases x <;> rfl) x (h x)
  visit g _ h x := g.visit_zoned.trans (Event.finish_zoned _) x (h x)
  tick g h x := g.tick_zoned x (h x)

/-- Settles O57: every kind of event leaves an arm in order that was, a sample and a RESTART whatever it was. -/
theorem zonesStayInOrder : Obligations.ZonesStayInOrder :=
  fun _ _ h e => Guard.Kept.of_zoned.step e h

end Sys2Proof.Machine


/-! # A level computed, the claims it withdraws and the faults it reports

What `Event.computeLevel` does to the action unit, which notices it and `Event.postFaults` post, and what of the event the
operations leave still that draw no finding. -/

namespace Sys2Proof.Machine

/-! ## Operations that draw nothing and poison nothing -/

/-- The second event has drawn no finding and poisoned no cell since the first, and nothing more calls for work in passing. -/
structure Event.Still (ev ev' : Event) : Prop where
  findings : ev'.guard.findings = ev.guard.findings
  reads : ev'.guard.reads = ev.guard.reads
  poisoned : ev'.guard.poisoned = ev.guard.poisoned
  touched : ev'.touched = ev.touched
  reached : ev'.reached = ev.reached
  late : ev'.late = ev.late

theorem Event.Still.refl (ev : Event) : ev.Still ev := ⟨rfl, rfl, rfl, rfl, rfl, rfl⟩

theorem Event.Still.trans {a b c : Event} (h : a.Still b) (k : b.Still c) : a.Still c :=
  ⟨k.findings.trans h.findings, k.reads.trans h.reads, k.poisoned.trans h.poisoned, k.touched.trans h.touched,
    k.reached.trans h.reached, k.late.trans h.late⟩

theorem Event.Still.steady {ev ev' : Event} (h : ev.Still ev') (good : ev.guard.foretoldGood) : ev.Steady ev' :=
  ⟨by rw [Guard.foretoldGood, h.findings]; exact good, h.poisoned, h.touched, h.reached, h.late⟩

theorem Event.onArm_still (ev : Event) (x : Arm) (f : ArmState → ArmState) : ev.Still (ev.onGuard fun g => g.onArm x f) :=
  ⟨by simp, by simp, by simp, rfl, rfl, rfl⟩

theorem Event.settleEntry_still (ev : Event) (c : Claim) (o : EntryOutcome) : ev.Still (ev.settleEntry c o) := by
  unfold Event.settleEntry
  split
  · exact .refl ev
  · obtain ⟨findings, reads, poisoned, touched, reached, late⟩ :=
      (ev.onArm_still c.arm _).trans (Event.onArm_still (ev.onGuard fun g => g.onArm c.arm _) c.arm _)
    exact ⟨findings, reads, poisoned, touched, reached, late⟩

theorem Event.leaveWaiting_still (ev : Event) (c : Claim) (n : ArmNotice) : ev.Still (ev.leaveWaiting c n) := by
  have left : ev.Still ((ev.onGuard fun g => ((g.removeClaim c.key).succeed c).reindex c.reserved).post (.toArm c.arm n)) :=
    ⟨by simp, by simp, by simp, rfl, rfl, rfl⟩
  obtain ⟨findings, reads, poisoned, touched, reached, late⟩ := left.trans (Event.settleEntry_still _ c .missed)
  exact ⟨findings, reads, poisoned, touched, reached, late⟩

theorem Event.withdrawAll_still (ev : Event) (p : Claim → Bool) : ev.Still (ev.withdrawAll p) := by
  have fold : ∀ (ks : List ClaimKey) (ev : Event), ev.Still (ev.forClaims ks Event.withdraw) := by
    intro ks
    induction ks with
    | nil => exact .refl
    | cons k ks ih =>
      intro ev
      refine .trans ?_ (ih _)
      dsimp only
      split
      · exact ev.leaveWaiting_still _ _
      · exact .refl ev
  exact fold _ ev

/-! ## Claims withdrawn -/

/-- The claims of a list withdrawn, each in the table under its name: their notices in the order of the list, and none of
the names is left. -/
theorem Event.withdrawEach (cs : List Claim) {ev : Event} (hk : ev.guard.keysDiffer) (nodup : (cs.map Claim.key).Nodup)
    (named : ∀ c ∈ cs, ∃ d ∈ ev.guard.claims, d.key = c.key ∧ d.origin = c.origin) :
    (ev.forClaims (cs.map Claim.key) Event.withdraw).out = ev.out ++ withdrawals cs ∧
      ∀ c ∈ cs, ∀ d ∈ (ev.forClaims (cs.map Claim.key) Event.withdraw).guard.claims, d.key ≠ c.key := by
  induction cs generalizing ev with
  | nil => exact ⟨(List.append_nil _).symm, fun _ h => absurd h List.not_mem_nil⟩
  | cons c cs ih =>
    obtain ⟨fresh, nodup⟩ := List.nodup_cons.1 nodup
    obtain ⟨d, hd, key, origin⟩ := named c List.mem_cons_self
    have step : ev.forClaims ((c :: cs).map Claim.key) Event.withdraw =
        (ev.withdraw d).forClaims (cs.map Claim.key) Event.withdraw := by
      unfold Event.forClaims
      rw [List.map_cons, List.foldl_cons, ← key, hk.claim? hd]
    have rest : ∀ b ∈ cs, ∃ e ∈ (ev.withdraw d).guard.claims, e.key = b.key ∧ e.origin = b.origin := by
      intro b hb
      obtain ⟨e, he, ekey, eorigin⟩ := named b (List.mem_cons_of_mem _ hb)
      have ne : e.key ≠ d.key := fun h => fresh (by rw [← key, ← h, ekey]; exact List.mem_map_of_mem hb)
      obtain ⟨f, hf, stays⟩ := ev.leaveWaiting_stays (b := d) (.withdrawn d.number d.origin) he ne
      exact ⟨f, hf, stays.keeps.key.trans ekey, stays.keeps.2.1.trans eorigin⟩
    obtain ⟨out, gone⟩ := ih ((ev.withdraw_change d).keysDiffer hk) nodup rest
    have arm : d.arm = c.arm := congrArg ClaimKey.arm key
    have number : d.number = c.number := congrArg ClaimKey.number key
    rw [step]
    refine ⟨?_, fun b hb e he => ?_⟩
    · rw [out, Event.withdraw, Event.leaveWaiting_out, List.append_assoc, arm, number, origin]
      rfl
    · rcases List.mem_cons.1 hb with rfl | hb
      · have last := Event.foldl_change (fun ev k => match ev.guard.claim? k with
          | some c => ev.withdraw c
          | none => ev) (fun ev k => by split; exacts [ev.withdraw_change _, .refl _]) (cs.map Claim.key) (ev.withdraw d)
        obtain ⟨f, hf, keeps⟩ := last.claim e he
        rw [keeps.key, ← key]
        exact ev.leaveWaiting_gone d _ f hf
      · exact gone b hb e he

section
variable {ev : Event} (hk : ev.guard.keysDiffer) (p : Claim → Bool)
include hk

theorem Event.withdrawAll_each :
    (ev.withdrawAll p).out = ev.out ++ withdrawals (ev.guard.claims.filter fun c => c.isWaiting && p c) ∧
      ∀ c ∈ ev.guard.claims.filter (fun c => c.isWaiting && p c),
        ∀ d ∈ (ev.withdrawAll p).guard.claims, d.key ≠ c.key :=
  Event.withdrawEach _ hk (hk.sublist (List.Sublist.map _ List.filter_sublist))
    fun c hc => ⟨c, (List.mem_filter.1 hc).1, rfl, rfl⟩

/-- With every waiting claim withdrawn the table holds held claims alone. -/
theorem Event.withdrawAll_held (h : ∀ c ∈ ev.guard.claims, c.phase = .waiting → p c = true) :
    ∀ d ∈ (ev.withdrawAll p).guard.claims, d.phase = .held := by
  intro d hd
  obtain ⟨c, hc, keeps⟩ := (ev.withdrawAll_change p).claim d hd
  refine keeps.held (Classical.byContradiction fun ne => ?_)
  have waits := Claim.waiting_of_not_held ne
  refine (Event.withdrawAll_each hk p).2 c (List.mem_filter.2 ⟨hc, ?_⟩) d hd keeps.key
  rw [Claim.isWaiting_iff.2 waits, h c hc waits]
  rfl

end

/-! ## The level -/

/-- The level about to be computed is a rise from below HOLD to HOLD or HALT (R81, R124). -/
def Guard.risesToHold (g : Guard) (x : Arm) : Prop := (g.arm x).unit.level.code < 2 ∧ 2 ≤ (g.levelFor x).code

/-- A waiting PLAN claim of an arm, which a rise to HOLD withdraws (R81). -/
def Claim.isPlanOf (x : Arm) (c : Claim) : Bool := c.arm = x && c.isPlan

/-- A level computed: at a rise to HOLD the arm's PLAN claims are withdrawn, else the guard alone changes. -/
theorem Event.computeLevel_cases (ev : Event) (x : Arm) :
    ev.guard.risesToHold x ∧ ev.computeLevel x =
      (ev.onGuard fun g => g.changeLevel x (ev.guard.levelFor x)).withdrawAll (Claim.isPlanOf x) ∨
    ¬ev.guard.risesToHold x ∧ ev.computeLevel x = { ev with guard := (ev.computeLevel x).guard } ∧
      (ev.computeLevel x).guard.claims = ev.guard.claims ∧ (ev.computeLevel x).guard.findings = ev.guard.findings ∧
      (ev.computeLevel x).guard.poisoned = ev.guard.poisoned := by
  unfold Event.computeLevel Guard.risesToHold
  dsimp only
  split
  · rename_i same
    rw [same]
    exact .inr ⟨by omega, rfl, rfl, rfl, rfl⟩
  · split
    · rename_i rise
      refine .inl ⟨?_, rfl⟩
      simpa [Level.atLeastHold] using rise
    · rename_i flat
      refine .inr ⟨?_, rfl, ?_, ?_, ?_⟩
      · simpa [Level.atLeastHold] using flat
      all_goals simp [Guard.changeLevel, Guard.followLines, Guard.onUnit]

theorem Event.computeLevel_still (ev : Event) (x : Arm) : ev.Still (ev.computeLevel x) := by
  rcases ev.computeLevel_cases x with ⟨-, e⟩ | ⟨-, e, -, findings, poisoned⟩
  · rw [e]
    have changed : ev.Still (ev.onGuard fun g => g.changeLevel x (ev.guard.levelFor x)) := by
      refine ⟨?_, ?_, ?_, rfl, rfl, rfl⟩ <;> simp [Guard.changeLevel, Guard.followLines, Guard.onUnit]
    exact changed.trans (Event.withdrawAll_still _ _)
  · exact ⟨findings, ev.computeLevel_reads x, poisoned, by rw [e], by rw [e], by rw [e]⟩

/-- The action unit after its level is computed: as it was, or with the level changed. -/
theorem Event.computeLevel_unit (ev : Event) (x : Arm) : ((ev.computeLevel x).guard.arm x).unit =
    if ev.guard.levelFor x = (ev.guard.arm x).unit.level then (ev.guard.arm x).unit
    else ((ev.guard.changeLevel x (ev.guard.levelFor x)).arm x).unit := by
  unfold Event.computeLevel
  dsimp only
  split
  · rfl
  · split
    · exact (Event.withdrawAll_moves (may := fun _ => False)
        (ev.onGuard fun g => g.changeLevel x (ev.guard.levelFor x)) _ x).unit id
    · rfl

theorem Guard.changeLevel_unit (g : Guard) (x : Arm) (l : Level) : ∃ lines, ((g.changeLevel x l).arm x).unit =
    { (g.arm x).unit with
      level := l
      slowTimer := if (g.arm x).unit.level = .none ∧ l = .slow then g.timerFor (g.cfg.arm x).tSlow else none
      holdTimer := if ((g.arm x).unit.level = .none ∨ (g.arm x).unit.level = .slow) ∧ l = .hold
        then g.timerFor (g.cfg.arm x).tHold else none
      lines := lines } := by
  unfold Guard.changeLevel Guard.followLines Guard.onUnit
  exact ⟨_, by rw [Guard.arm_onArm, Guard.arm_onArm]⟩

theorem Level.code_lt_two {l : Level} : l.code < 2 ↔ l = .none ∨ l = .slow := by
  cases l <;> decide

/-- What the computation leaves of the action unit: the sources, the level of these, and the timers that follow it (R122,
R126, R127). -/
theorem Event.computeLevel_follows (ev : Event) (x : Arm) :
    ((ev.computeLevel x).guard.arm x).unit.sources = (ev.guard.arm x).unit.sources ∧
    ((ev.computeLevel x).guard.arm x).unit.level = ev.guard.levelFor x ∧
    ev.guard.timersFollow x (ev.guard.arm x).unit ((ev.computeLevel x).guard.arm x).unit := by
  rw [Event.computeLevel_unit]
  split
  · rename_i same
    exact ⟨rfl, same.symm, fun _ => ⟨rfl, rfl⟩, fun h => absurd rfl h⟩
  · rename_i changed
    obtain ⟨lines, unit⟩ := ev.guard.changeLevel_unit x (ev.guard.levelFor x)
    rw [unit]
    refine ⟨rfl, rfl, fun h => absurd h changed, fun _ => ⟨rfl, ?_⟩⟩
    simp only [Level.code_lt_two]
    rfl

/-- The withdrawals that a computation of the level posts. -/
theorem Event.computeLevel_out {ev : Event} (hk : ev.guard.keysDiffer) (x : Arm) : (ev.computeLevel x).out = ev.out ++
    (if (ev.guard.arm x).unit.level.code < 2 ∧ 2 ≤ (ev.guard.levelFor x).code then
      withdrawals (ev.guard.claims.filter fun c => c.isWaiting && c.isPlanOf x) else []) := by
  have changed : (ev.guard.changeLevel x (ev.guard.levelFor x)).claims = ev.guard.claims := by
    simp [Guard.changeLevel, Guard.followLines, Guard.onUnit]
  rcases ev.computeLevel_cases x with ⟨rise, e⟩ | ⟨flat, e, -⟩ <;> unfold Guard.risesToHold at *
  · rw [e, if_pos rise]
    have differ := (Guard.Change.changeLevel ev.guard x (ev.guard.levelFor x)).keysDiffer hk
    refine (Event.withdrawAll_each (ev := ev.onGuard fun g => g.changeLevel x (ev.guard.levelFor x)) differ _).1.trans ?_
    rw [Event.onGuard_guard, Event.onGuard_out, changed]
  · rw [e, if_neg flat, List.append_nil]

/-- Where every waiting claim is a PLAN claim of the arm, a rise to HOLD leaves none waiting. -/
theorem Event.computeLevel_held {ev : Event} (hk : ev.guard.keysDiffer) (x : Arm)
    (h : ∀ c ∈ ev.guard.claims, c.phase = .waiting → ev.guard.risesToHold x ∧ c.isPlanOf x = true) :
    ∀ d ∈ (ev.computeLevel x).guard.claims, d.phase = .held := by
  rcases ev.computeLevel_cases x with ⟨-, e⟩ | ⟨flat, -, claims, -⟩
  · rw [e]
    have change := Guard.Change.changeLevel ev.guard x (ev.guard.levelFor x)
    refine Event.withdrawAll_held (change.keysDiffer hk) _ fun c hc waits => ?_
    rw [Event.onGuard_guard] at hc
    have same : (ev.guard.changeLevel x (ev.guard.levelFor x)).claims = ev.guard.claims := by
      simp [Guard.changeLevel, Guard.followLines, Guard.onUnit]
    exact (h c (same ▸ hc) waits).2
  · rw [claims]
    exact fun d hd => Classical.byContradiction fun ne => flat (h d hd (Claim.waiting_of_not_held ne)).1

/-! ## The faults -/

/-- The FAULT notices of some changes of sources, of those with the notify flag on (R120). -/
def Guard.faults (g : Guard) (cs : List SourceChange) : List Posted :=
  (cs.filter fun ch => (g.cfg.arm ch.arm).notify.of ch.source).map fun ch =>
    .toHost (.fault ch.arm ch.source ch.change
      (sourceAction (g.cfg.arm ch.arm) (g.arm ch.arm).unit.sources ch.source) (g.arm ch.arm).unit.level)

theorem Event.postFaults_eq (ev : Event) :
    ev.postFaults = { ev with changes := [], out := ev.out ++ ev.guard.faults ev.changes } := by
  have fold : ∀ (cs : List SourceChange) (e : Event), cs.foldl (fun ev ch =>
      let c := ev.guard.cfg.arm ch.arm
      let u := (ev.guard.arm ch.arm).unit
      if c.notify.of ch.source then
        ev.post (.toHost (.fault ch.arm ch.source ch.change (sourceAction c u.sources ch.source) u.level))
      else ev) e = { e with out := e.out ++ e.guard.faults cs } := by
    intro cs
    induction cs with
    | nil => exact fun e => by simp [Guard.faults]
    | cons c cs ih =>
      intro e
      rw [List.foldl_cons, ih]
      dsimp only
      split
      · rename_i on
        simp [Guard.faults, on, Event.post]
      · rename_i off
        simp [Guard.faults, off]
  exact fold ev.changes { ev with changes := [] }

theorem Event.settleLevel_still (ev : Event) (x : Arm) : ev.Still (ev.settleLevel x) := by
  unfold Event.settleLevel
  rw [Event.postFaults_eq]
  obtain ⟨findings, reads, poisoned, touched, reached, late⟩ := ev.computeLevel_still x
  exact ⟨findings, reads, poisoned, touched, reached, late⟩

theorem Event.settleLevel_guard (ev : Event) (x : Arm) : (ev.settleLevel x).guard = (ev.computeLevel x).guard :=
  Event.postFaults_guard _

@[simp] theorem Event.settleEntry_changes (ev : Event) (c : Claim) (o : EntryOutcome) :
    (ev.settleEntry c o).changes = ev.changes := by
  unfold Event.settleEntry
  split <;> rfl

theorem Event.leaveWaiting_changes (ev : Event) (c : Claim) (n : ArmNotice) :
    (ev.leaveWaiting c n).changes = ev.changes := by
  simp [Event.leaveWaiting]

theorem Event.withdrawAll_changes (ev : Event) (p : Claim → Bool) : (ev.withdrawAll p).changes = ev.changes := by
  have fold : ∀ (ks : List ClaimKey) (ev : Event), (ev.forClaims ks Event.withdraw).changes = ev.changes := by
    intro ks
    induction ks with
    | nil => exact fun _ => rfl
    | cons k ks ih =>
      intro ev
      refine (ih _).trans ?_
      dsimp only
      split
      · exact ev.leaveWaiting_changes _ _
      · rfl
  exact fold _ ev

theorem Event.computeLevel_changes (ev : Event) (x : Arm) : (ev.computeLevel x).changes = ev.changes := by
  rcases ev.computeLevel_cases x with ⟨-, e⟩ | ⟨-, e, -⟩
  · rw [e]
    exact Event.withdrawAll_changes _ _
  · rw [e]

/-- Withdrawals, then the faults of the changes so far, at the level computed. -/
theorem Event.settleLevel_out {ev : Event} (hk : ev.guard.keysDiffer) (x : Arm) : (ev.settleLevel x).out = ev.out ++
    ((if (ev.guard.arm x).unit.level.code < 2 ∧ 2 ≤ (ev.guard.levelFor x).code then
      withdrawals (ev.guard.claims.filter fun c => c.isWaiting && c.isPlanOf x) else []) ++
      (ev.settleLevel x).guard.faults ev.changes) := by
  rw [Event.settleLevel_guard]
  unfold Event.settleLevel
  rw [Event.postFaults_eq]
  dsimp only
  rw [Event.computeLevel_out hk, Event.computeLevel_changes, List.append_assoc]

end Sys2Proof.Machine


/-! # A SAMPLE that is not accepted (O30), and a gap (O35)

The gap event latches SAMPLE_GAP, counts and computes the level (`Guard.gapLatched`, `Event.settleLevel`); with no claim
waiting but those that the level withdraws, the end of the event adds nothing to this. -/

namespace Sys2Proof.Machine

/-! ## O30 -/

/-- Settles O30: both answers are made at once, and nothing follows either. -/
theorem sampleIsNotAccepted : Obligations.SampleIsNotAccepted := by
  unfold Obligations.SampleIsNotAccepted
  intro s x tag p powered room
  refine ⟨fun mode length => ?_, fun mode => ?_⟩
  · refine State.arm_answered powered room tag rfl ?_
    change (if s.guard.mode = .init then s.guard.discardSample x p else s.guard.serveSample x p) = _
    rw [if_neg mode, Guard.serveSample, length]
    rfl
  · refine State.arm_quiet powered room tag rfl ?_
    change (if s.guard.mode = .init then s.guard.discardSample x p else s.guard.serveSample x p) = _
    rw [if_pos mode]
    rfl

/-! ## A level settled, to the end of the event -/

/-- No claim waits but the arm's PLAN claims, no plan can end, and nothing else is left to do: the end of the event adds
nothing to a level settled. -/
theorem Event.settleLevel_finish {ev : Event} (x : Arm) (hk : ev.guard.keysDiffer) (ends : ev.guard.nothingEnds)
    (waits : ∀ c ∈ ev.guard.claims, c.phase = .waiting → c.isPlanOf x = true) (evaluate : ev.evaluate = false)
    (reached : ev.reached = []) (judged : ev.judged = []) (planLeft : ev.planLeft = false) (late : ev.late = []) :
    (ev.settleLevel x).finish.guard = (ev.settleLevel x).guard ∧ (ev.settleLevel x).finish.out = (ev.settleLevel x).out := by
  have still := ev.settleLevel_still x
  rcases ev.computeLevel_cases x with ⟨rise, -⟩ | ⟨-, e, -⟩
  · have held : ∀ c ∈ (ev.settleLevel x).guard.claims, c.phase = .held := by
      rw [Event.settleLevel_guard]
      exact Event.computeLevel_held hk x fun c hc w => ⟨rise, waits c hc w⟩
    obtain ⟨out, guard⟩ := Event.finish_idle held (still.reached.trans reached)
      ((Event.settleLevel_change ev x).nothingEnds ends)
    exact ⟨guard, by rw [out, still.late, late, List.append_nil]⟩
  · have quiet : (ev.settleLevel x).finish = (ev.settleLevel x).afterReply := by
      have settled : ev.settleLevel x = (ev.computeLevel x).postFaults := rfl
      rw [Event.postFaults_eq, e] at settled
      rw [settled]
      exact Event.finish_quiet evaluate reached judged planLeft
    rw [quiet]
    exact ⟨rfl, (congrArg _ (still.late.trans late)).trans (List.append_nil _)⟩

/-- A change of an arm beside its slots leaves no plan at its end where there was none. -/
theorem Guard.nothingEnds.onArm {g : Guard} (h : g.nothingEnds) {x : Arm} {f : ArmState → ArmState}
    (slots : ∀ i, (f (g.arm x)).slot i = (g.arm x).slot i) : (g.onArm x f).nothingEnds := by
  obtain ⟨mode, none⟩ := h
  refine ⟨by rwa [Guard.onArm_mode], fun y i p => ?_⟩
  rw [Guard.arm_onArm_eq]
  split
  · rename_i e
    rw [← e, slots]
    exact none x i p
  · exact none y i p

/-- The timers follow the level alike where the two units have the same level and timers. -/
theorem Guard.timersFollow_congr {g h : Guard} {x : Arm} {u v is : ActionUnit} (cfg : h.cfg = g.cfg) (now : h.now = g.now)
    (level : v.level = u.level) (slow : v.slowTimer = u.slowTimer) (hold : v.holdTimer = u.holdTimer)
    (f : h.timersFollow x v is) : g.timersFollow x u is := by
  unfold Guard.timersFollow at *
  rwa [cfg, now, level, slow, hold] at f

/-! ## The gap -/

/-- A source already latched or asserted is no change; else its raise is one (R119, R120). -/
theorem Event.raise_changes (ev : Event) (x : Arm) (src : Source) : (ev.raise x src).changes = ev.changes ++
    if (ev.guard.arm x).unit.sources.has src then [] else [⟨x, src, if src.isLatched then .raised else .asserted⟩] := by
  unfold Event.raise
  split
  · exact (List.append_nil _).symm
  · rfl

section
variable (g : Guard) (x : Arm)

theorem Guard.gapLatched_arm : (g.gapLatched x).guard.arm x = (g.arm x).lapsed.signalled .gaps 1 := by
  rw [Guard.gapLatched_guard, Guard.arm_onArm, Guard.arm_onArm]

theorem Guard.gapLatched_out : (g.gapLatched x).out = [] := by
  unfold Guard.gapLatched Event.raise
  split <;> rfl

theorem Guard.gapLatched_changes : (g.gapLatched x).changes =
    if (g.arm x).unit.sources.sampleGap then [] else [⟨x, .sampleGap, .raised⟩] :=
  g.quietEvent.raise_changes x .sampleGap

theorem Guard.gapLatched_cfg : (g.gapLatched x).guard.cfg = g.cfg := by
  rw [Guard.gapLatched_guard, Guard.onArm_cfg, Guard.onArm_cfg]

theorem Guard.gapLatched_now : (g.gapLatched x).guard.now = g.now := by
  rw [Guard.gapLatched_guard, Guard.onArm_now, Guard.onArm_now]

theorem Guard.gapLatched_claims : (g.gapLatched x).guard.claims = g.claims := by
  rw [Guard.gapLatched_guard, Guard.onArm_claims, Guard.onArm_claims]

theorem Guard.gapLatched_keysDiffer (h : g.keysDiffer) : (g.gapLatched x).guard.keysDiffer := by
  unfold Guard.keysDiffer Guard.keys
  rw [g.gapLatched_claims]
  exact h

theorem Guard.gapLatched_levelFor (h : g.mode ≠ .init) : (g.gapLatched x).guard.levelFor x =
    levelOf (g.cfg.arm x) { (g.arm x).unit.sources with sampleGap := true } := by
  have mode : (g.gapLatched x).guard.mode = g.mode := by
    rw [Guard.gapLatched_guard, Guard.onArm_mode, Guard.onArm_mode]
  unfold Guard.levelFor
  rw [mode, if_neg h, g.gapLatched_cfg, g.gapLatched_arm]
  rfl

theorem Guard.gapLatched_nothingEnds (h : g.nothingEnds) : (g.gapLatched x).guard.nothingEnds := by
  rw [Guard.gapLatched_guard, Guard.onArm_onArm]
  exact h.onArm fun i => by cases i <;> rfl

/-- The event of a gap changes the arm as the obligation says, but for the counters. -/
theorem Guard.gapExpiry_followedBy : (g.onArm x ArmState.lapsed).followedBy (g.gapExpiry x).finish.guard := by
  have counted : Guard.Change (g.onArm x ArmState.lapsed) (g.gapLatched x).guard := by
    rw [Guard.gapLatched_guard]
    exact .signal (g.onArm x ArmState.lapsed) x .gaps 1
  exact (counted.trans (((g.gapLatched x).settleLevel_change x).trans (Event.finish_change _))).followedBy

/-- GAPS counts one (R25). -/
theorem Guard.gapExpiry_counter (n : Nat) (h : ((g.arm x).counters.selectable.get n).selection = .gaps) :
    (((g.gapExpiry x).finish.guard.arm x).counters.selectable.get n).value =
      sat32 (((g.arm x).counters.selectable.get n).value + 1) := by
  have moves : (g.gapLatched x).guard.Moves anyChange (g.gapExpiry x).finish.guard :=
    .trans (Event.settleLevel_moves _ x trivial) (Event.finish_moves _)
  have latched : ((g.gapLatched x).guard.arm x).counters.selectable.get n =
      ((g.arm x).counters.selectable.get n).signal .gaps 1 := by
    rw [Guard.gapLatched_arm]
    exact Four.get_map _ _ _
  obtain ⟨-, value⟩ := (moves x).counter n
  rw [latched] at value
  rw [value (by rw [Counter.signal_selection, h]; rfl), Counter.signal_value, if_pos h]

end

section
variable {g : Guard} {x : Arm} (mode : g.mode ≠ .init) (hk : g.keysDiffer)
include mode

/-- The level after a gap, and the timers that follow it. -/
theorem Guard.gapExpiry_level : ((g.gapExpiry x).guard.arm x).unit.level =
      levelOf (g.cfg.arm x) { (g.arm x).unit.sources with sampleGap := true } ∧
    g.timersFollow x (g.arm x).unit ((g.gapExpiry x).guard.arm x).unit := by
  obtain ⟨-, level, timers⟩ := (g.gapLatched x).computeLevel_follows x
  rw [Guard.gapExpiry_eq, Event.settleLevel_guard]
  refine ⟨level.trans (g.gapLatched_levelFor x mode),
    Guard.timersFollow_congr (g.gapLatched_cfg x) (g.gapLatched_now x) ?_ ?_ ?_ timers⟩
  all_goals rw [Guard.gapLatched_arm]; rfl

include hk

/-- What a gap posts: the withdrawals of a rise to HOLD, and FAULT where SAMPLE_GAP is new. -/
theorem Guard.gapExpiry_out : (g.gapExpiry x).out = g.sourceNotices x .sampleGap (!(g.arm x).unit.sources.sampleGap)
    (g.cfg.arm x).actions.sampleGap (levelOf (g.cfg.arm x) { (g.arm x).unit.sources with sampleGap := true }) := by
  have unit : ((g.gapLatched x).guard.arm x).unit.level = (g.arm x).unit.level := by
    rw [Guard.gapLatched_arm]
    rfl
  have faults : (g.gapExpiry x).guard.faults (g.gapLatched x).changes =
      if !(g.arm x).unit.sources.sampleGap && (g.cfg.arm x).notify.of .sampleGap then
        [.toHost (.fault x .sampleGap .raised (g.cfg.arm x).actions.sampleGap ((g.gapExpiry x).guard.arm x).unit.level)]
      else [] := by
    have cfg : (g.gapExpiry x).guard.cfg = g.cfg := ((g.gapLatched x).settleLevel_change x).cfg.trans (g.gapLatched_cfg x)
    rw [Guard.gapLatched_changes]
    unfold Guard.faults
    cases was : (g.arm x).unit.sources.sampleGap <;> cases on : (g.cfg.arm x).notify.of .sampleGap <;>
      simp [cfg, on, sourceAction]
  rw [Guard.gapExpiry_eq, Event.settleLevel_out (g.gapLatched_keysDiffer x hk), ← Guard.gapExpiry_eq, faults,
    (Guard.gapExpiry_level mode).1, unit, g.gapLatched_levelFor x mode, g.gapLatched_claims, g.gapLatched_out, List.nil_append]
  unfold Guard.sourceNotices Claim.isPlanOf
  simp only [Bool.and_assoc]

end

/-- With no claim waiting but the arm's PLAN claims, and no plan at its end, the end of the event adds nothing. -/
theorem Guard.gapExpiry_finish {g : Guard} {x : Arm} (hk : g.keysDiffer) (ends : g.nothingEnds)
    (waits : ∀ k ∈ g.claims, k.phase = .waiting → k.arm = x ∧ k.isPlan = true) :
    (g.gapExpiry x).finish.guard = (g.gapExpiry x).guard ∧ (g.gapExpiry x).finish.out = (g.gapExpiry x).out := by
  have claims := g.gapLatched_claims x
  refine Event.settleLevel_finish (ev := g.gapLatched x) x (g.gapLatched_keysDiffer x hk)
    (g.gapLatched_nothingEnds x ends) (fun c hc w => ?_) ?_ ?_ ?_ ?_ ?_
  · obtain ⟨arm, plan⟩ := waits c (claims ▸ hc) w
    simp [Claim.isPlanOf, arm, plan]
  all_goals
    unfold Guard.gapLatched Event.raise
    split <;> rfl

/-- Settles O35: the gap's own changes are those of `Guard.gapLatched`; the level, its withdrawals and the FAULT follow from
`Event.settleLevel`. -/
theorem gapExpiryLatches : Obligations.GapExpiryLatches := by
  unfold Obligations.GapExpiryLatches
  intro s x powered
  refine ⟨fun idle => ?_, fun due => ?_⟩
  · refine (State.whenPowered_on powered _).trans ?_
    rw [if_neg (by simp [idle])]
  refine ⟨s.conclude (s.guard.gapExpiry x), ?_, ⟨_, rfl⟩, s.guard.gapExpiry_followedBy x,
    fun n _ was => s.guard.gapExpiry_counter x n was, fun mode hk ends waits => ?_⟩
  · refine (State.whenPowered_on powered _).trans ?_
    rw [if_pos due]
  obtain ⟨guard, out⟩ := Guard.gapExpiry_finish hk ends waits
  obtain ⟨level, timers⟩ := Guard.gapExpiry_level (x := x) mode
  rw [State.conclude_guard, guard]
  refine ⟨level, timers, ?_⟩
  change s.link.deliver (s.guard.gapExpiry x).finish.out = _
  rw [out, Guard.gapExpiry_out mode hk]

end Sys2Proof.Machine


/-! # Handover, evaluation and the end of an event, with good reads

With good reads the handover posts nothing (`Event.Quiet`), and what withdraws or grants a waiting claim leaves every other
claim its entered flag (`Claim.HoldsOn`). -/

namespace Sys2Proof.Machine

/-! ## The handover -/

/-- A steady course of an event that posts nothing. -/
structure Event.Quiet (ev ev' : Event) : Prop where
  steady : ev.Steady ev'
  out : ev'.out = ev.out

theorem Event.Quiet.refl {ev : Event} (h : ev.guard.foretoldGood) : ev.Quiet ev := ⟨.refl h, rfl⟩

theorem Event.Quiet.trans {a b c : Event} (h : a.Quiet b) (k : b.Quiet c) : a.Quiet c :=
  ⟨h.steady.trans k.steady, k.out.trans h.out⟩

theorem Event.Still.quiet {ev ev' : Event} (h : ev.Still ev') (good : ev.guard.foretoldGood) (out : ev'.out = ev.out) :
    ev.Quiet ev' := ⟨h.steady good, out⟩

theorem Event.drawn_quiet {ev : Event} (good : ev.guard.foretoldGood) (n : Nat) : ev.Quiet (ev.drawn n) :=
  ⟨⟨good.drawn n, rfl, rfl, rfl, rfl⟩, rfl⟩

theorem Event.letGo_still (ev : Event) (cells : CellSet) : ev.Still (ev.letGo cells) := by
  refine ⟨?_, ?_, ?_, rfl, rfl, rfl⟩ <;> simp [Event.letGo]

/-- A held claim's record leaves the table, and its cells go or stay vacating. -/
theorem Event.ended_quiet {ev : Event} (good : ev.guard.foretoldGood) (k : ClaimKey) (c : Claim) (o : EntryOutcome)
    (cells : CellSet) : ev.Quiet
      (let ev := (ev.onGuard fun g => g.removeClaim k).settleEntry c o
      if (ev.guard.arm c.arm).calculator.zone = .clear then ev.letGo cells
      else ev.onGuard fun g => (g.onVacate c.arm fun v => unionCells v cells).reindex cells) := by
  have removed : ev.Quiet ((ev.onGuard fun g => g.removeClaim k).settleEntry c o) :=
    Event.Still.quiet (.trans (b := ev.onGuard fun g => g.removeClaim k) ⟨rfl, rfl, rfl, rfl, rfl, rfl⟩
      (Event.settleEntry_still _ c o)) good (Event.settleEntry_out _ c o)
  dsimp only
  split
  · exact removed.trans ((Event.letGo_still _ cells).quiet removed.steady.good rfl)
  · refine removed.trans (Event.Still.quiet ⟨?_, ?_, ?_, rfl, rfl, rfl⟩ removed.steady.good rfl) <;>
      simp [Guard.onVacate]

theorem Event.endHeld_quiet {ev : Event} (good : ev.guard.foretoldGood) (touched : ev.touched = []) {k : ClaimKey}
    {o : EntryOutcome} (reads : (ev.endHeld k o).guard.reads = ev.guard.reads) : ev.Quiet (ev.endHeld k o) := by
  cases found : ev.guard.claim? k with
  | none =>
    unfold Event.endHeld
    rw [found]
    exact .refl good
  | some c =>
    have read : (ev.readCells .handover (ev.guard.ownCellsOf c)).1.guard.reads = ev.guard.reads := by
      refine Nat.le_antisymm ?_ (ev.readCells_reads_le _ _)
      rw [← reads]
      unfold Event.endHeld
      rw [found]
      dsimp only
      split
      · exact Nat.le_refl _
      · split <;> simp
    obtain ⟨n, e⟩ := Event.readCells_drawn good touched read
    have drawn := Event.drawn_quiet good n
    unfold Event.endHeld
    rw [found]
    dsimp only
    rw [e]
    split
    · exact drawn
    · exact drawn.trans (Event.ended_quiet drawn.steady.good _ _ _ _)

/-- Claims completed, one after the other. -/
theorem Event.completed_quiet {ks : List ClaimKey} {ev : Event} (good : ev.guard.foretoldGood) (touched : ev.touched = [])
    (reads : (ks.foldl (fun ev k => ev.endHeld k .picked) ev).guard.reads = ev.guard.reads) :
    ev.Quiet (ks.foldl (fun ev k => ev.endHeld k .picked) ev) := by
  induction ks generalizing ev with
  | nil => exact .refl good
  | cons k ks ih =>
    have first : (ev.endHeld k .picked).guard.reads = ev.guard.reads :=
      Nat.le_antisymm (reads ▸ Event.foldl_reads_le (fun ev k => ev.endHeld_reads_le k .picked) ks _)
        (ev.endHeld_reads_le k _)
    have ended := Event.endHeld_quiet good touched first
    exact ended.trans (ih ended.steady.good (ended.steady.touched.trans touched) (reads.trans first.symm))

/-- The vacating cells of an arm that its footprint does not cover. -/
def Guard.uncovered (g : Guard) (x : Arm) : CellSet :=
  (g.arm x).vacate.filter fun c => !covered (g.arm x).calculator.footprint c

/-- Vacate progress whose reads are good: what it draws, and the cells that it lets go. -/
theorem Event.vacateProgress_drawn {ev : Event} (good : ev.guard.foretoldGood) (touched : ev.touched = []) {x : Arm}
    (reads : (ev.vacateProgress x).guard.reads = ev.guard.reads) : ∃ n, ev.vacateProgress x =
      ((ev.drawn n).onGuard fun g => g.onVacate x fun v => minusCells v (ev.guard.uncovered x)).letGo
        (ev.guard.uncovered x) := by
  have read : (ev.readCells .handover (ev.guard.uncovered x)).1.guard.reads = ev.guard.reads := by
    rw [← reads]
    unfold Event.vacateProgress
    simp [Guard.uncovered]
  obtain ⟨n, e⟩ := Event.readCells_drawn good touched read
  refine ⟨n, ?_⟩
  unfold Guard.uncovered at e
  unfold Event.vacateProgress
  dsimp only
  rw [e]
  rfl

theorem Event.vacateProgress_quiet {ev : Event} (good : ev.guard.foretoldGood) (touched : ev.touched = []) {x : Arm}
    (reads : (ev.vacateProgress x).guard.reads = ev.guard.reads) : ev.Quiet (ev.vacateProgress x) := by
  obtain ⟨n, e⟩ := Event.vacateProgress_drawn good touched reads
  have drawn := Event.drawn_quiet good n
  rw [e]
  exact drawn.trans (Event.Still.quiet (.trans (Event.onArm_still _ x _) (Event.letGo_still _ _)) drawn.steady.good rfl)

theorem Event.vacateProgress_reads_le (ev : Event) (x : Arm) : ev.guard.reads ≤ (ev.vacateProgress x).guard.reads := by
  unfold Event.vacateProgress
  simpa using ev.readCells_reads_le _ _

theorem Event.complete_reads_le (ev : Event) (x : Arm) : ev.guard.reads ≤ (ev.complete x).guard.reads :=
  Event.foldl_reads_le (fun ev k => ev.endHeld_reads_le k .picked) _ ev

theorem Event.handOver_reads_le (ev : Event) (x : Arm) (z : Zone) : ev.guard.reads ≤ (ev.handOver x z).guard.reads := by
  unfold Event.handOver
  dsimp only
  refine Nat.le_trans ?_ (Event.vacateProgress_reads_le _ x)
  split
  · exact ev.complete_reads_le x
  · exact Nat.le_refl _

theorem Event.handOver_quiet {ev : Event} (good : ev.guard.foretoldGood) (touched : ev.touched = []) {x : Arm} {z : Zone}
    (reads : (ev.handOver x z).guard.reads = ev.guard.reads) : ev.Quiet (ev.handOver x z) := by
  unfold Event.handOver at reads ⊢
  dsimp only at reads ⊢
  split at reads
  · rename_i cleared
    rw [if_pos cleared]
    have first : (ev.complete x).guard.reads = ev.guard.reads :=
      Nat.le_antisymm (reads ▸ Event.vacateProgress_reads_le _ x) (ev.complete_reads_le x)
    have done := Event.completed_quiet good touched first
    exact done.trans
      (Event.vacateProgress_quiet done.steady.good (done.steady.touched.trans touched) (reads.trans first.symm))
  · rename_i cleared
    rw [if_neg cleared]
    exact Event.vacateProgress_quiet good touched reads

/-! ## A claim's entered flag -/

/-- A claim that stays with its entered flag. -/
structure Claim.HoldsOn (c d : Claim) : Prop where
  stays : c.Stays d
  entered : d.entered = c.entered

theorem Claim.HoldsOn.refl (c : Claim) : c.HoldsOn c := ⟨.refl c, rfl⟩

theorem Claim.HoldsOn.trans {b c d : Claim} (h : b.HoldsOn c) (k : c.HoldsOn d) : b.HoldsOn d :=
  ⟨h.stays.trans k.stays, k.entered.trans h.entered⟩

theorem Guard.promote_holdsOn (g : Guard) (x : Arm) {c : Claim} (hc : c ∈ g.claims) :
    ∃ d ∈ (g.promote x).claims, c.HoldsOn d := by
  refine ⟨_, List.mem_map_of_mem hc, ?_⟩
  split
  · exact ⟨⟨⟨rfl, rfl, rfl, rfl, rfl, rfl, id⟩, rfl, rfl, fun _ h => .inl h⟩, rfl⟩
  · exact .refl c

theorem Guard.succeed_holdsOn (g : Guard) (b : Claim) {c : Claim} (hc : c ∈ g.claims) :
    ∃ d ∈ (g.succeed b).claims, c.HoldsOn d := by
  unfold Guard.succeed
  split
  · exact g.promote_holdsOn _ hc
  · exact ⟨c, hc, .refl c⟩

theorem Event.leaveWaiting_holdsOn (ev : Event) {b c : Claim} (n : ArmNotice) (hc : c ∈ ev.guard.claims)
    (ne : c.key ≠ b.key) : ∃ d ∈ (ev.leaveWaiting b n).guard.claims, c.HoldsOn d := by
  rw [Event.leaveWaiting_claims]
  exact Guard.succeed_holdsOn _ b (List.mem_filter.2 ⟨hc, by simpa using ne⟩)

/-- A claim that is not among those withdrawn holds on. -/
theorem Event.withdraw_holdsOn {ks : List ClaimKey} {ev : Event} {c : Claim} (hc : c ∈ ev.guard.claims)
    (other : c.key ∉ ks) : ∃ d ∈ (ev.forClaims ks Event.withdraw).guard.claims, c.HoldsOn d := by
  induction ks generalizing ev c with
  | nil => exact ⟨c, hc, .refl c⟩
  | cons k ks ih =>
    obtain ⟨ne, other⟩ := not_or.1 (List.mem_cons.not.1 other)
    have step : ∃ d ∈ (match ev.guard.claim? k with
        | some b => ev.withdraw b
        | none => ev).guard.claims, c.HoldsOn d := by
      split
      · rename_i b found
        exact ev.leaveWaiting_holdsOn _ hc fun e => ne (e.trans (Guard.claim?_some found).2)
      · exact ⟨c, hc, .refl c⟩
    obtain ⟨d, hd, first⟩ := step
    obtain ⟨e, he, rest⟩ := ih hd (first.stays.keeps.key ▸ other)
    exact ⟨e, he, first.trans rest⟩

/-- Held claims hold on when a level is computed: only waiting claims are withdrawn (R81). -/
theorem Event.computeLevel_holdsOn {ev : Event} (hk : ev.guard.keysDiffer) (x : Arm) {c : Claim} (hc : c ∈ ev.guard.claims)
    (held : c.phase = .held) : ∃ d ∈ (ev.computeLevel x).guard.claims, c.HoldsOn d := by
  rcases ev.computeLevel_cases x with ⟨-, e⟩ | ⟨-, -, claims, -⟩
  · rw [e]
    have same : (ev.guard.changeLevel x (ev.guard.levelFor x)).claims = ev.guard.claims := by
      simp [Guard.changeLevel, Guard.followLines, Guard.onUnit]
    refine Event.withdraw_holdsOn (ev := ev.onGuard fun g => g.changeLevel x (ev.guard.levelFor x)) (same.symm ▸ hc)
      fun named => ?_
    obtain ⟨b, hb, key⟩ := List.mem_map.1 named
    obtain ⟨hb, waits⟩ := List.mem_filter.1 hb
    obtain rfl := hk.eq (same ▸ hb) hc key
    simp [Claim.isWaiting, held] at waits
  · rw [claims]
    exact ⟨c, hc, .refl c⟩

/-! ## The evaluation -/

theorem Guard.grant_holdsOn (g : Guard) (b : Claim) {c : Claim} (hc : c ∈ g.claims) (ne : c.key ≠ b.key) :
    ∃ d ∈ (g.grant b).claims, c.HoldsOn d := by
  unfold Guard.grant
  rw [Guard.reindex_claims]
  refine Guard.succeed_holdsOn _ b ?_
  rw [Guard.onVacate, Guard.onArm_claims]
  exact Guard.onClaim_mem_other hc ne

theorem Guard.reserve_holdsOn (g : Guard) (b : Claim) {c : Claim} (hc : c ∈ g.claims) (ne : c.key ≠ b.key) :
    ∃ d ∈ (g.reserve b).claims, c.HoldsOn d := by
  unfold Guard.reserve
  dsimp only
  rw [Guard.reindex_claims]
  exact ⟨c, Guard.onClaim_mem_other hc ne, .refl c⟩

/-- One candidate taken with good reads: every other claim holds on. -/
theorem Event.takeCandidate_holdsOn {ev : Event} (good : ev.guard.foretoldGood) (touched : ev.touched = []) {k : ClaimKey}
    (reads : (ev.takeCandidate k).guard.reads = ev.guard.reads) : ev.Steady (ev.takeCandidate k) ∧
      ∀ c ∈ ev.guard.claims, c.key ≠ k → ∃ d ∈ (ev.takeCandidate k).guard.claims, c.HoldsOn d := by
  rw [Event.takeCandidate_reads] at reads
  obtain ⟨n, e⟩ := Event.testClaim_drawn 769 good touched reads
  have drawn := (Event.drawn_quiet good n).steady
  unfold Event.takeCandidate
  dsimp only
  rw [e]
  split
  · exact ⟨drawn, fun c hc _ => ⟨c, hc, .refl c⟩⟩
  · rename_i b found
    have key := (Guard.claim?_some found).2
    split
    · refine ⟨drawn.trans (Event.grant_evaluates drawn.good b).steady, fun c hc ne => ?_⟩
      have claims : ((ev.drawn n).grant b).guard.claims = ((ev.drawn n).guard.grant b).claims := by
        simp [Event.grant, Event.signal, Guard.signal]
      rw [claims]
      exact Guard.grant_holdsOn (ev.drawn n).guard b hc (key ▸ ne)
    · split
      · refine ⟨drawn.trans (Event.Still.steady (ev := ev.drawn n) ?_ drawn.good), fun c hc ne => ?_⟩
        · refine ⟨?_, ?_, ?_, rfl, rfl, rfl⟩ <;> simp [Guard.reserve]
        · exact Guard.reserve_holdsOn (ev.drawn n).guard b hc (key ▸ ne)
      · exact ⟨drawn, fun c hc _ => ⟨c, hc, .refl c⟩⟩

/-- What an evaluation with good reads leaves: a steady event, and the held claims where no two claims share a name. -/
theorem Event.evaluateRounds_holdsOn (n : Nat) {ev : Event} (good : ev.guard.foretoldGood) (touched : ev.touched = [])
    {taken : List ClaimKey} (reads : (ev.evaluateRounds n taken).guard.reads = ev.guard.reads) :
    ev.Steady (ev.evaluateRounds n taken) ∧ (ev.guard.keysDiffer → ∀ c ∈ ev.guard.claims, c.phase = .held →
      ∃ d ∈ (ev.evaluateRounds n taken).guard.claims, c.HoldsOn d) := by
  induction n generalizing ev taken with
  | zero => exact ⟨.refl good, fun _ c hc _ => ⟨c, hc, .refl c⟩⟩
  | succ n ih =>
    unfold Event.evaluateRounds at reads ⊢
    split
    · exact ⟨.refl good, fun _ c hc _ => ⟨c, hc, .refl c⟩⟩
    · rename_i b found
      rw [found] at reads
      dsimp only at reads ⊢
      have first := Nat.le_antisymm (reads ▸ Event.evaluateRounds_reads_le n _ _)
        (Event.takeCandidate_reads_le { ev with reformed := [] } b.key)
      have start : ev.Steady { ev with reformed := [] } := ⟨good, rfl, rfl, rfl, rfl⟩
      obtain ⟨step, others⟩ := Event.takeCandidate_holdsOn (ev := { ev with reformed := [] }) good touched first
      obtain ⟨steps, rest⟩ := ih step.good (step.touched.trans touched) (reads.trans first.symm)
      refine ⟨(start.trans step).trans steps, fun hk c hc held => ?_⟩
      obtain ⟨hb, waits⟩ := Guard.nextCandidate_some found
      have ne : c.key ≠ b.key := fun key => by
        rw [hk.eq hc hb key, waits] at held
        cases held
      obtain ⟨d, hd, holds⟩ := others c hc ne
      obtain ⟨e, he, last⟩ := rest ((Event.takeCandidate_change { ev with reformed := [] } b.key).keysDiffer hk) d hd
        (holds.stays.keeps.held held)
      exact ⟨e, he, holds.trans last⟩

theorem Event.evaluateIfCalled_holdsOn {ev : Event} (good : ev.guard.foretoldGood) (touched : ev.touched = [])
    (reads : ev.evaluateIfCalled.guard.reads = ev.guard.reads) :
    ev.Steady ev.evaluateIfCalled ∧ (ev.guard.keysDiffer → ∀ c ∈ ev.guard.claims, c.phase = .held →
      ∃ d ∈ ev.evaluateIfCalled.guard.claims, c.HoldsOn d) := by
  unfold Event.evaluateIfCalled Event.runEvaluation at reads ⊢
  split
  · rename_i called
    rw [if_pos called] at reads
    split
    · exact ⟨⟨good, rfl, rfl, rfl, rfl⟩, fun _ c hc _ => ⟨c, hc, .refl c⟩⟩
    · rename_i mode
      rw [if_neg mode] at reads
      obtain ⟨⟨still, poisoned, touched, reached, late⟩, held⟩ := Event.evaluateRounds_holdsOn 4000 good touched reads
      exact ⟨⟨still, poisoned, touched, reached, late⟩, held⟩
  · exact ⟨.refl good, fun _ c hc _ => ⟨c, hc, .refl c⟩⟩

theorem Event.evaluateIfCalled_evaluate (ev : Event) : ev.evaluateIfCalled.evaluate = false := by
  unfold Event.evaluateIfCalled Event.runEvaluation
  split
  · split <;> rfl
  · rename_i called
    simpa using called

/-! ## The end of an event -/

/-- With its evaluation made and no section over its threshold, an event's end changes slots and the mode alone. -/
theorem Event.finish_evaluated {ev : Event} (evaluated : ev.evaluate = false) (reached : ev.reached = []) :
    ev.finish.guard.claims = ev.guard.claims ∧ ev.guard.Moves (fun _ => False) ev.finish.guard := by
  unfold Event.finish Event.evaluateIfCalled
  rw [if_neg (by simp [evaluated]), Event.dealWithSections_none 8 (ev := ev.afterReply) reached]
  refine ⟨by rw [Event.endDraining_claims, Event.endPlans_claims]; rfl, ?_⟩
  exact .trans (Event.endPlans_moves ev.afterReply) (.of_arms (Event.endDraining_arm _))

end Sys2Proof.Machine


/-! # A sample with good reads

Under `State.goodReads` each stage of an accepted sample draws good findings alone, and nothing is left to do in passing
once the evaluation before ECHO is made. -/

namespace Sys2Proof.Machine

/-! ## What the stages before the level leave of the event -/

/-- Of the event the guard and the changes to report alone differ. -/
def Event.OnlyChanges (ev ev' : Event) : Prop := ev' = { ev with guard := ev'.guard, changes := ev'.changes }

theorem Event.OnlyChanges.refl (ev : Event) : ev.OnlyChanges ev := rfl

theorem Event.OnlyChanges.trans {a b c : Event} (h : a.OnlyChanges b) (k : b.OnlyChanges c) : a.OnlyChanges c := by
  unfold Event.OnlyChanges at *
  rw [k, h]

theorem Event.OnlyChanges.out {ev ev' : Event} (h : ev.OnlyChanges ev') : ev'.out = ev.out := by
  unfold Event.OnlyChanges at h
  rw [h]

theorem Event.onGuard_only (ev : Event) (f : Guard → Guard) : ev.OnlyChanges (ev.onGuard f) := rfl

theorem Event.signal_only (ev : Event) (x : Arm) (e : CountEvent) (n : Nat) : ev.OnlyChanges (ev.signal x e n) := rfl

theorem Event.lower_only (ev : Event) (x : Arm) (src : Source) : ev.OnlyChanges (ev.lower x src) := rfl

theorem Event.raise_only (ev : Event) (x : Arm) (src : Source) : ev.OnlyChanges (ev.raise x src) := by
  unfold Event.raise
  split <;> rfl

theorem Event.setLive_only (ev : Event) (x : Arm) (src : Source) (b : Bool) : ev.OnlyChanges (ev.setLive x src b) := by
  unfold Event.setLive
  split
  · exact ev.raise_only x src
  · exact ev.onGuard_only _

theorem Event.raiseIf_only (ev : Event) (x : Arm) (src : Source) (b : Bool) :
    ev.OnlyChanges (if b then ev.raise x src else ev) := by
  split
  · exact ev.raise_only x src
  · exact .refl ev

theorem Event.intake_only (ev : Event) (x : Arm) (s : Sample) : ev.OnlyChanges (ev.intake x s) := by
  unfold Event.intake
  dsimp only
  refine .trans (.trans (.trans ?_ (Event.signal_only _ x _ _)) (Event.setLive_only _ x _ _)) (Event.onGuard_only _ _)
  have accepted := (ev.setLive_only x .sampleEarly (isEarly (ev.guard.arm x).intake.lastTime ev.guard.now
    (ev.guard.cfg.arm x).tMin)).trans (Event.signal_only _ x .samplesAccepted 1)
  split
  · exact accepted.trans (Event.signal_only _ x _ _)
  · exact accepted

theorem Event.heard_only (ev : Event) (x : Arm) (s : Sample) : ev.OnlyChanges (ev.heard x s) := by
  unfold Event.heard Event.calculate
  refine .trans (.trans ?_ (Event.signal_only _ x _ _)) (Event.lower_only _ x _)
  exact (ev.intake_only x s).trans (Event.onGuard_only _ _)

theorem Event.latchVerdict_only (ev : Event) (x : Arm) : ev.OnlyChanges (ev.latchVerdict x) := by
  unfold Event.latchVerdict
  dsimp only
  exact .trans (.trans (Event.raiseIf_only _ _ _ _) (Event.raiseIf_only _ _ _ _)) (Event.raiseIf_only _ _ _ _)

theorem Event.monitored_only (ev : Event) (x : Arm) (s : Sample) : (ev.watched x s).1.OnlyChanges (ev.monitored x s) :=
  (Event.onGuard_only (ev.watched x s).1 _).trans (Event.latchVerdict_only _ x)

/-- Such an event is still where its guard differs by a change of one arm. -/
theorem Event.OnlyChanges.still {ev ev' : Event} (h : ev.OnlyChanges ev') {x : Arm} {f : ArmState → ArmState}
    (guard : ev'.guard = ev.guard.onArm x f) : ev.Still ev' := by
  unfold Event.OnlyChanges at h
  refine ⟨by rw [guard, Guard.onArm_findings], by rw [guard, Guard.onArm_reads],
    by rw [guard, Guard.onArm_poisoned], ?_, ?_, ?_⟩
  all_goals rw [h]

section
variable (ev : Event) (x : Arm) (s : Sample)

theorem Event.heard_still : ev.Still (ev.heard x s) := (ev.heard_only x s).still (ev.heard_guard x s)

theorem Event.monitored_still : (ev.watched x s).1.Still (ev.monitored x s) :=
  (ev.monitored_only x s).still (ev.monitored_guard x s)

theorem Event.leveled_still : (ev.monitored x s).Still (ev.leveled x s) :=
  (Event.settleLevel_still _ x).trans ⟨rfl, rfl, rfl, rfl, rfl, rfl⟩

theorem Event.heard_out : (ev.heard x s).out = ev.out := (ev.heard_only x s).out

theorem Event.monitored_out : (ev.monitored x s).out = (ev.watched x s).1.out := (ev.monitored_only x s).out

theorem Event.heard_claims : (ev.heard x s).guard.claims = ev.guard.claims := by
  rw [Event.heard_guard, Guard.onArm_claims]

theorem Event.monitored_claims : (ev.monitored x s).guard.claims = (ev.watched x s).1.guard.claims := by
  rw [Event.monitored_guard, Guard.onArm_claims]

end

/-! ## The stages that draw findings -/

/-- What an accepted sample whose reads are all good leaves at each stage. -/
structure Event.GoodSample (ev : Event) (x : Arm) (s : Sample) : Prop where
  watched : ∃ n, (ev.watched x s).1 = (ev.heard x s).drawn n
  leveled : ev.Steady (ev.leveled x s)
  handed : (ev.leveled x s).Quiet (ev.handed x s)
  handedReads : (ev.handed x s).guard.reads = (ev.leveled x s).guard.reads
  accepted : (ev.handed x s).Steady (ev.acceptSample x s)
  held : (ev.handed x s).guard.keysDiffer → ∀ c ∈ (ev.handed x s).guard.claims, c.phase = .held →
    ∃ d ∈ (ev.acceptSample x s).guard.claims, c.HoldsOn d

theorem Event.goodSample {ev : Event} {x : Arm} {s : Sample} (good : ev.guard.foretoldGood) (touched : ev.touched = [])
    (reads : (ev.acceptSample x s).finish.guard.reads = ev.guard.reads) : ev.GoodSample x s := by
  have heard := ev.heard_still x s
  have monitored := ev.monitored_still x s
  have leveled := ev.leveled_still x s
  have watchedLe : (ev.heard x s).guard.reads ≤ (ev.watched x s).1.guard.reads := Event.readCells_reads_le _ _ _
  have handedLe : (ev.leveled x s).guard.reads ≤ (ev.handed x s).guard.reads := Event.handOver_reads_le _ x _
  have acceptedLe : (ev.handed x s).guard.reads ≤ (ev.acceptSample x s).guard.reads := Event.evaluateIfCalled_reads_le _
  have finishLe := Nat.le_trans (ev.acceptSample x s).evaluateIfCalled_reads_le (ev.acceptSample x s).finish_reads_le
  have heardReads := heard.reads
  have leveledReads := leveled.reads.trans monitored.reads
  have heardGood := (heard.steady good).good
  have heardTouched := heard.touched.trans touched
  obtain ⟨n, watched⟩ : ∃ n, (ev.watched x s).1 = (ev.heard x s).drawn n :=
    Event.readCells_drawn heardGood heardTouched (by
      change (ev.watched x s).1.guard.reads = _
      omega)
  have before : ev.Steady (ev.leveled x s) := by
    have drawn := (Event.drawn_quiet heardGood n).steady
    rw [← watched] at drawn
    exact ((heard.steady good).trans drawn).trans ((monitored.trans leveled).steady drawn.good)
  have beforeTouched := before.touched.trans touched
  have handed : (ev.leveled x s).Quiet (ev.handed x s) :=
    Event.handOver_quiet before.good beforeTouched (by
      change (ev.handed x s).guard.reads = _
      omega)
  obtain ⟨accepted, held⟩ := Event.evaluateIfCalled_holdsOn handed.steady.good
    (handed.steady.touched.trans beforeTouched) (by
      change (ev.acceptSample x s).guard.reads = _
      omega)
  exact ⟨⟨n, watched⟩, before, handed, by omega, accepted, held⟩

section
variable {ev : Event} {x : Arm} {s : Sample} (good : ev.GoodSample x s)
include good

theorem Event.GoodSample.watched_claims : (ev.watched x s).1.guard.claims = ev.guard.claims := by
  obtain ⟨n, e⟩ := good.watched
  rw [e]
  exact ev.heard_claims x s

theorem Event.GoodSample.claims : (ev.monitored x s).guard.claims = ev.guard.claims :=
  (ev.monitored_claims x s).trans good.watched_claims

theorem Event.GoodSample.out : (ev.monitored x s).out = ev.out := by
  obtain ⟨n, e⟩ := good.watched
  rw [Event.monitored_out, e]
  exact ev.heard_out x s

theorem Event.GoodSample.keysDiffer (hk : ev.guard.keysDiffer) : (ev.monitored x s).guard.keysDiffer := by
  unfold Guard.keysDiffer Guard.keys
  rw [good.claims]
  exact hk

/-- No section is over its threshold once ECHO is formed. -/
theorem Event.GoodSample.reached (h : ev.reached = []) : (ev.acceptSample x s).reached = [] :=
  good.accepted.reached.trans (good.handed.steady.reached.trans (good.leveled.reached.trans h))

/-- What ECHO reports is what the event leaves: its end changes slots and the mode alone. -/
theorem Event.GoodSample.finish (h : ev.reached = []) :
    (ev.acceptSample x s).finish.guard.claims = (ev.acceptSample x s).guard.claims ∧
      (ev.acceptSample x s).guard.Moves (fun _ => False) (ev.acceptSample x s).finish.guard :=
  Event.finish_evaluated (Event.evaluateIfCalled_evaluate _) (good.reached h)

/-- The action unit is done when the level is computed. -/
theorem Event.GoodSample.unit (h : ev.reached = []) :
    ((ev.acceptSample x s).finish.guard.arm x).unit = (((ev.monitored x s).computeLevel x).guard.arm x).unit ∧
      ((ev.acceptSample x s).finish.guard.arm x).unit = ((ev.acceptSample x s).guard.arm x).unit := by
  have handed : (ev.leveled x s).guard.Moves (· ≠ .act) (ev.handed x s).guard :=
    Event.handOver_moves _ x _ (by simp) (by simp)
  have accepted : (ev.handed x s).guard.Moves (· ≠ .act) (ev.acceptSample x s).guard :=
    Event.evaluateIfCalled_moves _ (by simp)
  have last := ((good.finish h).2 x).unit id
  have unit := ((handed.trans accepted) x).unit (by simp)
  refine ⟨?_, last⟩
  rw [last, unit]
  unfold Event.leveled
  rw [Event.onGuard_guard, Guard.setEntered_arm, Event.settleLevel_guard]

end

end Sys2Proof.Machine


/-! # What an accepted sample counts, flags and lets go (O28) -/

namespace Sys2Proof.Machine

/-- A sample of the right length that finds room for its ECHO. -/
theorem State.sample_served {s : State} {x : Arm} (serves : s.servesArm x) (tag : Byte) {p : List Byte}
    (length : sampleLengthOk p = true) :
    let ev := s.guard.event.acceptSample x (parseSample p)
    exec (.sample x tag p) s = .next ((s.armReplied x 0x20#8 tag
      (.ok (ev.guard.echoBytes x (parseSample p).sequence))).conclude ev) := by
  intro ev
  obtain ⟨⟨powered, mode⟩, room⟩ := serves
  have served : s.guard.serveArm x 0x20#8 p = s.guard.serveSample x p := if_neg mode
  change (s.whenPowered fun s => s.armArrival x ⟨0x20#8, tag, p⟩) = _
  rw [State.whenPowered_on powered, State.armArrival_served room 0x20#8 tag p rfl, served, Guard.serveSample, length]
  rfl

/-! ## The counters -/

theorem ArmState.signalled_counter (a : ArmState) (e : CountEvent) (n i : Nat) :
    (a.signalled e n).counters.selectable.get i = (a.counters.selectable.get i).signal e n := Four.get_map _ _ _

/-- A counter's value once a sample is counted. -/
def Counter.atSample (k : Counter) (early : Bool) (lost clamped : Nat) : Nat :=
  match k.selection with
  | .samplesAccepted => sat32 (k.value + 1)
  | .samplesEarly => if early then sat32 (k.value + 1) else k.value
  | .samplesLost => sat32 (k.value + lost)
  | .velocityClamped => sat32 (k.value + clamped)
  | _ => k.value

theorem ArmState.counted_counter (a : ArmState) (early : Bool) (lost clamped i : Nat) :
    ((a.counted early lost clamped).counters.selectable.get i).selection = (a.counters.selectable.get i).selection ∧
    ((a.counted early lost clamped).counters.selectable.get i).value =
      (a.counters.selectable.get i).atSample early lost clamped := by
  unfold ArmState.counted Counter.atSample
  cases early
  all_goals
    simp only [if_true, if_false, Bool.false_eq_true, ArmState.signalled_counter, Counter.signal_selection,
      Counter.signal_value, true_and]
    cases (a.counters.selectable.get i).selection <;> rfl

/-- What a sample counts stays what the event counted, the events of claims and plans apart. -/
theorem Event.acceptSample_counter (ev : Event) (x : Arm) (s : Sample) (i : Nat) :
    ((ev.heard x s).guard.arm x |>.counters.selectable.get i).Keeps
      (((ev.acceptSample x s).finish.guard.arm x).counters.selectable.get i) := by
  have watched := (ev.watched_moves (may := anyChange) x s trivial x).counter i
  have rest : (ev.monitored x s).guard.Moves anyChange (ev.acceptSample x s).finish.guard :=
    .trans (ev.leveled_moves x s trivial) (.trans (Event.handOver_moves _ x _ trivial trivial)
      (.trans (Event.evaluateIfCalled_moves _ trivial) (Event.finish_moves _)))
  have after := (rest x).counter i
  rw [Event.monitored_arm] at after
  exact watched.trans after

theorem Event.acceptSample_counts (ev : Event) (x : Arm) (s : Sample) (i : Nat) :
    let a := ev.guard.arm x
    let was := a.counters.selectable.get i
    let is := ((ev.acceptSample x s).finish.guard.arm x).counters.selectable.get i
    is.selection = was.selection ∧ (was.selection.ofClaims = false →
      is.value = was.atSample (isEarly a.intake.lastTime ev.guard.now (ev.guard.cfg.arm x).tMin)
        (samplesLost a.intake.lastSequence s.sequence) s.velocity.clampCount) := by
  obtain ⟨selection, value⟩ := ev.acceptSample_counter x s i
  obtain ⟨counted, at'⟩ := (ev.guard.arm x).counted_counter
    (isEarly (ev.guard.arm x).intake.lastTime ev.guard.now (ev.guard.cfg.arm x).tMin)
    (samplesLost (ev.guard.arm x).intake.lastSequence s.sequence) s.velocity.clampCount i
  rw [Event.heard_arm] at selection value
  exact ⟨selection.trans counted, fun h => (value (counted ▸ h)).trans at'⟩

theorem isEarly_iff {last : Option Nat} {now tMin : Nat} :
    isEarly last now tMin = true ↔ ∃ t, last = some t ∧ now - t < tMin := by
  cases last <;> simp [isEarly]

/-- A component is clamped when it lies beyond the bounds (R36). -/
theorem clampVelocity_eq_iff {v : Int} : clampVelocity v = v ↔ ¬(v < -10000 ∨ 10000 < v) := by
  unfold clampVelocity
  omega

/-! ## The entered flags -/

section
variable {ev : Event} {x : Arm} {s : Sample}

/-- The flag is set where a held claim of the arm shares a cell with the footprint (R58). -/
theorem Guard.setEntered_claim {g : Guard} {r : Rect} (h : (g.arm x).calculator.footprint = some r) {c : Claim}
    (hc : c ∈ g.claims) (held : c.phase = .held) : ∃ d ∈ (g.setEntered x).claims, c.keeps d ∧
      (d.entered = true ↔ c.entered = true ∨ (c.arm = x ∧ ∃ cell ∈ c.effective, r.covers cell = true)) := by
  refine ⟨_, List.mem_map_of_mem hc, ?_⟩
  have test : (c.isHeld && c.arm = x && c.effective.any (covered (g.arm x).calculator.footprint)) = true ↔
      c.arm = x ∧ ∃ cell ∈ c.effective, r.covers cell = true := by
    simp [Claim.isHeld_iff.2 held, h, covered]
  split
  · rename_i entered
    exact ⟨⟨rfl, rfl, rfl, rfl, rfl, rfl, id⟩, by simp [test.1 entered]⟩
  · rename_i entered
    exact ⟨c.keeps_refl, .inl, fun h => h.elim id fun met => absurd (test.2 met) entered⟩

theorem Event.leveled_calculator (ev : Event) (x : Arm) (s : Sample) : ((ev.leveled x s).guard.arm x).calculator =
    (ev.guard.arm x).calculator.sample ev.guard.cfg x s := by
  rw [((ev.leveled_change x s).armKeeps x).2.1, Event.monitored_calculator]

variable (good : ev.GoodSample x s) {r : Rect}
  (inside : ((ev.guard.arm x).calculator.sample ev.guard.cfg x s).footprint = some r)
include good

theorem Event.GoodSample.leveled_vacate : ((ev.leveled x s).guard.arm x).vacate = (ev.guard.arm x).vacate := by
  rw [(ev.leveled_moves (may := (· = .act)) x s rfl x).vacate_eq (by simp) (by simp), Event.monitored_arm]
  obtain ⟨n, e⟩ := good.watched
  rw [e]
  change ((ev.heard x s).guard.arm x).vacate = _
  rw [Event.heard_arm]
  rfl

include inside

/-- An INSIDE sample completes no claim; vacate progress alone is made (R94). -/
theorem Event.GoodSample.handed_inside (touched : ev.touched = []) :
    ∃ n, ev.handed x s = (((ev.leveled x s).drawn n).onGuard fun g =>
      g.onVacate x fun v => minusCells v ((ev.leveled x s).guard.uncovered x)).letGo
        ((ev.leveled x s).guard.uncovered x) := by
  have zone : ((ev.leveled x s).guard.arm x).calculator.zone ≠ .clear := by
    rw [Event.leveled_calculator]
    intro clear
    have outside := (Calculator.sample_zone _ ev.guard.cfg x s).2 (by rw [clear]; decide)
    rw [inside] at outside
    cases outside
  have progress : ev.handed x s = (ev.leveled x s).vacateProgress x := by
    unfold Event.handed Event.handOver
    simp [zone]
  rw [progress]
  refine Event.vacateProgress_drawn good.leveled.good (good.leveled.touched.trans touched) ?_
  rw [← progress]
  exact good.handedReads

theorem Event.GoodSample.handed_vacate (touched : ev.touched = []) :
    ((ev.handed x s).guard.arm x).vacate = (ev.guard.arm x).vacate.filter r.covers := by
  obtain ⟨n, e⟩ := good.handed_inside inside touched
  rw [e]
  unfold Event.letGo
  rw [Event.callEvaluation_guard, Event.onGuard_guard, Guard.reindex_arm, Event.onGuard_guard, Guard.onVacate_vacate,
    if_pos rfl]
  change minusCells ((ev.leveled x s).guard.arm x).vacate _ = _
  unfold Guard.uncovered minusCells
  rw [Event.leveled_calculator, inside, good.leveled_vacate]
  refine List.filter_congr fun c hc => ?_
  simp [covered, hc]

theorem Event.GoodSample.handed_claims (touched : ev.touched = []) :
    (ev.handed x s).guard.claims = (ev.leveled x s).guard.claims := by
  obtain ⟨n, e⟩ := good.handed_inside inside touched
  rw [e]
  simp [Event.letGo, Guard.onVacate]
  rfl

/-- A held claim stays to the end of the event, its entered flag set where the footprint shares a cell with it. -/
theorem Event.GoodSample.held_claim (touched : ev.touched = []) (reached : ev.reached = []) (hk : ev.guard.keysDiffer)
    {d : Claim} (hd : d ∈ ev.guard.claims) (held : d.phase = .held) :
    ∃ e ∈ (ev.acceptSample x s).finish.guard.claims, d.keeps e ∧
      (e.entered = true ↔ d.entered = true ∨ (d.arm = x ∧ ∃ cell ∈ d.effective, r.covers cell = true)) := by
  have monitored := good.keysDiffer hk
  obtain ⟨b, hb, leveled⟩ := Event.computeLevel_holdsOn monitored x (good.claims ▸ hd) held
  rw [← Event.settleLevel_guard] at hb
  have footprint : (((ev.monitored x s).settleLevel x).guard.arm x).calculator.footprint = some r := by
    rw [← Guard.setEntered_arm _ x x, ← inside, ← Event.leveled_calculator]
    rfl
  obtain ⟨c, hc, keeps, entered⟩ := Guard.setEntered_claim footprint hb (leveled.stays.keeps.held held)
  have handed : c ∈ (ev.handed x s).guard.claims := good.handed_claims inside touched ▸ hc
  have differ := ((ev.leveled_change x s).trans (ev.handed_change x s)).keysDiffer monitored
  obtain ⟨e, he, accepted⟩ := good.held differ c handed (keeps.held (leveled.stays.keeps.held held))
  refine ⟨e, (good.finish reached).1.symm ▸ he,
    Claim.keeps_trans leveled.stays.keeps (Claim.keeps_trans keeps accepted.stays.keeps), ?_⟩
  have arm : b.arm = d.arm := congrArg ClaimKey.arm leveled.stays.keeps.key
  rw [accepted.entered, entered, leveled.entered, leveled.stays.effective, arm]

/-- The vacating cells at the end of the event, which only a grant can have made fewer. -/
theorem Event.GoodSample.vacate (touched : ev.touched = []) (reached : ev.reached = []) :
    (∀ cell ∈ ((ev.acceptSample x s).finish.guard.arm x).vacate,
      cell ∈ (ev.guard.arm x).vacate ∧ r.covers cell = true) ∧
    ((∀ d ∈ ev.guard.claims, d.phase = .held) →
      ((ev.acceptSample x s).finish.guard.arm x).vacate = (ev.guard.arm x).vacate.filter r.covers) := by
  have handed := good.handed_vacate inside touched
  rw [((good.finish reached).2 x).vacate_eq id id]
  refine ⟨fun cell hc => ?_, fun held => ?_⟩
  · have sub := ((ev.handed x s).evaluateIfCalled_moves (may := (· = .shrink)) rfl x).vacate_sub (by simp) cell hc
    rw [handed] at sub
    exact List.mem_filter.1 sub
  · have after : ∀ c ∈ (ev.handed x s).guard.claims, c.phase = .held := by
      intro c hc
      obtain ⟨b, hb, keeps⟩ := ((ev.leveled_change x s).trans (ev.handed_change x s)).claim c hc
      exact keeps.held (held b (good.claims ▸ hb))
    rw [Event.acceptSample_eq]
    rcases Event.evaluateIfCalled_idle after with e | e | e <;> rw [e] <;> exact handed

end

/-- Settles O28: the counters by `Event.acceptSample_counts`, the flags and the vacating cells stage by stage. -/
theorem sampleSetsFlagsAndCounts : Obligations.SampleSetsFlagsAndCounts := by
  unfold Obligations.SampleSetsFlagsAndCounts
  intro s x tag p serves length
  refine ⟨_, State.sample_served serves tag length, fun n _ => ?_, fun reads hk r inside => ?_⟩
  · obtain ⟨selection, value⟩ := s.guard.event.acceptSample_counts x (parseSample p) n
    rw [show s.guard.event.guard = s.guard from rfl] at selection value
    rw [State.conclude_guard]
    refine ⟨selection, fun h => ?_, fun h early => ?_, fun h early => ?_, fun h => ?_, fun h => ?_⟩
    all_goals
      rw [value (by rw [h]; rfl)]
      simp only [Counter.atSample, h]
    · exact if_pos (isEarly_iff.2 early)
    · exact if_neg fun e => early (isEarly_iff.1 e)
    · rfl
    · unfold Velocity.clampCount
      simp only [clampVelocity_eq_iff, ite_not]
  · obtain ⟨good, reads⟩ := reads
    have sample : s.guard.event.GoodSample x (parseSample p) := Event.goodSample good rfl reads
    obtain ⟨vacate, exact'⟩ := sample.vacate inside rfl rfl
    exact ⟨fun d hd held => sample.held_claim inside rfl rfl hk hd held, vacate, exact'⟩

end Sys2Proof.Machine


/-! # What an accepted sample leaves of its arm (O27, whatever its reads find)

The intake and the calculator are those of `ArmState.heard`, the verdict and the sources those of `ArmState.monitored`; what
follows changes the arm by the shared operations alone. -/

namespace Sys2Proof.Machine

section
variable (ev : Event) (x : Arm) (s : Sample)

/-- From the latched verdict to the end of the event the shared operations alone are at work. -/
theorem Event.acceptSample_finish_change :
    Guard.Change (ev.monitored x s).guard (ev.acceptSample x s).finish.guard :=
  (ev.acceptSample_change x s).trans (Event.finish_change _)

theorem Event.accepted_intake : ((ev.acceptSample x s).finish.guard.arm x).intake =
    ⟨some s, some ev.guard.now, some s.sequence, .running, some (ev.guard.now + (ev.guard.cfg.arm x).tGap)⟩ := by
  obtain ⟨intake, -⟩ := (ev.acceptSample_finish_change x s).armKeeps x
  rw [intake, Event.monitored_intake]

theorem Event.accepted_calculator : ((ev.acceptSample x s).finish.guard.arm x).calculator =
    (ev.guard.arm x).calculator.sample ev.guard.cfg x s := by
  obtain ⟨-, calculator, -⟩ := (ev.acceptSample_finish_change x s).armKeeps x
  rw [calculator, Event.monitored_calculator]

theorem Event.accepted_verdict : ((ev.acceptSample x s).finish.guard.arm x).verdict = ev.verdict x s := by
  obtain ⟨-, -, verdict, -⟩ := (ev.acceptSample_finish_change x s).armKeeps x
  rw [verdict, Event.monitored_arm]
  rfl

/-- ECHO carries the zone state and the verdict that the event leaves. -/
theorem Event.echoed_arm :
    ((ev.acceptSample x s).guard.arm x).calculator = (ev.guard.arm x).calculator.sample ev.guard.cfg x s ∧
      ((ev.acceptSample x s).guard.arm x).verdict = ((ev.acceptSample x s).finish.guard.arm x).verdict := by
  obtain ⟨-, calculator, verdict, -⟩ := (Event.finish_change (ev.acceptSample x s)).armKeeps x
  exact ⟨calculator.symm.trans (ev.accepted_calculator x s), verdict.symm⟩

/-- The contents of ECHO (R31). -/
theorem Event.echoed_bytes : (ev.acceptSample x s).guard.echoBytes x s.sequence = [s.sequence,
    byte ((ev.acceptSample x s).guard.arm x).unit.level.code,
    byte ((ev.guard.arm x).calculator.sample ev.guard.cfg x s).zone.code,
    byte ((ev.acceptSample x s).finish.guard.arm x).verdict.code, byte ((ev.acceptSample x s).guard.heldCount x)] := by
  obtain ⟨zone, verdict⟩ := ev.echoed_arm x s
  rw [← zone, ← verdict]
  rfl

theorem Event.accepted_sources : ((ev.acceptSample x s).finish.guard.arm x).unit.sources =
    { (ev.guard.arm x).unit.sources with
      sampleEarly := isEarly (ev.guard.arm x).intake.lastTime ev.guard.now (ev.guard.cfg.arm x).tMin
      disagree := s.disagrees (ev.guard.cfg.arm x)
      noPosition := false
      reach := (ev.guard.arm x).unit.sources.reach || (ev.verdict x s).reach
      intrusion := (ev.guard.arm x).unit.sources.intrusion || (ev.verdict x s).intrusion
      fenceEntry := (ev.guard.arm x).unit.sources.fenceEntry || (ev.verdict x s).fenceEntry
      revoked := ((ev.acceptSample x s).finish.guard.arm x).unit.sources.revoked } := by
  obtain ⟨-, -, -, -, sources, -⟩ := (ev.acceptSample_finish_change x s).armKeeps x
  rw [Event.monitored_unit] at sources
  exact sources

/-- The cells that the monitor reads are those of the new footprint. -/
theorem Event.watched_cells : ((ev.heard x s).guard.arm x).calculator.cells =
    ((ev.guard.arm x).calculator.sample ev.guard.cfg x s).cells := by
  rw [Event.heard_arm]
  rfl

/-- Without a footprint there is nothing to judge (R52). -/
theorem Event.verdict_outside (h : ((ev.guard.arm x).calculator.sample ev.guard.cfg x s).zone ≠ .inside) :
    ev.verdict x s = ⟨false, false, false⟩ := by
  have outside := (Calculator.sample_zone _ ev.guard.cfg x s).2 h
  unfold Event.verdict Event.watched
  rw [Event.watched_cells, Calculator.cells, outside]
  rfl

theorem Event.verdict_good (touched : ev.touched = [])
    (h : ev.guard.goodFor (ev.guard.draws ((ev.guard.arm x).calculator.sample ev.guard.cfg x s).cells)) :
    ev.verdict x s =
      verdictOf x (((ev.guard.arm x).calculator.sample ev.guard.cfg x s).cells.map ev.guard.entryOf) := by
  have heard := ev.heard_still x s
  have entries : (ev.heard x s).guard.entryOf = ev.guard.entryOf := by
    rw [Event.heard_guard]
    cases x <;> rfl
  have draws : ∀ cells, (ev.heard x s).guard.draws cells = ev.guard.draws cells := fun cells => by
    unfold Guard.draws
    rw [heard.poisoned]
  unfold Event.verdict Event.watched
  rw [Event.watched_cells, Event.readCells_good .monitor _ (heard.touched.trans touched), entries]
  rw [Guard.goodFor, draws, heard.findings]
  exact h

end

/-! ## The rest changes as the follow-up can -/

/-- An arm with the intake, the calculator, the verdict and the sources of another. -/
def ArmState.withTaken (a b : ArmState) : ArmState :=
  { a with
    intake := b.intake
    calculator := b.calculator
    verdict := b.verdict
    unit := { a.unit with sources := b.unit.sources } }

theorem ArmState.keeps.withTaken {a b : ArmState} (h : a.keeps b) (c : ArmState) : (a.withTaken c).keeps (b.withTaken c) := by
  obtain ⟨-, -, -, number, -, -, slot0, slot1⟩ := h
  exact ⟨rfl, rfl, rfl, number, rfl, id, slot0, slot1⟩

/-- What one guard follows from another by, it follows by with an arm of both changed so that the arm is kept. -/
theorem Guard.followedBy.onArm {g h : Guard} (f : g.followedBy h) {x : Arm} {p q : ArmState → ArmState}
    (keeps : (p (g.arm x)).keeps (q (h.arm x))) : (g.onArm x p).followedBy (h.onArm x q) := by
  obtain ⟨cfg, now, powered, permitSupply, linesCut, fences, leakTimer, scrubPasses, mode, arms, claims, retired⟩ := f
  have sections : ∀ (g : Guard) (r : ArmState → ArmState) n, (g.onArm x r).isRetired n = g.isRetired n := by
    intro g r n
    cases x <;> rfl
  refine ⟨by simpa, by simpa, by simpa, by simpa, by simpa, by simpa, by simpa, by simpa, by simpa, fun y => ?_,
    by simpa, fun n hn => ?_⟩
  · rw [Guard.arm_onArm_eq, Guard.arm_onArm_eq]
    split
    · rename_i e
      exact e ▸ keeps
    · exact arms y
  · rw [sections] at hn ⊢
    exact retired n hn

/-- But for the intake, the calculator, the verdict and the sources, the event changes the guard as its follow-up can. -/
theorem Event.acceptSample_followedBy (ev : Event) (x : Arm) (s : Sample) :
    (ev.guard.onArm x fun a => a.withTaken ((ev.acceptSample x s).finish.guard.arm x)).followedBy
      (ev.acceptSample x s).finish.guard := by
  have taken : ∀ (b : ArmState) {g h : Guard}, Guard.Change g h →
      (g.onArm x fun a => a.withTaken b).followedBy (h.onArm x fun a => a.withTaken b) :=
    fun b _ _ c => c.followedBy.onArm ((c.armKeeps x).withTaken b)
  generalize e : (ev.acceptSample x s).finish.guard.arm x = b
  have heard : (ev.guard.onArm x fun a => a.withTaken b).followedBy ((ev.heard x s).guard.onArm x fun a => a.withTaken b) := by
    rw [Event.heard_guard, Guard.onArm_onArm]
    exact (Guard.Change.refl ev.guard).followedBy.onArm (ArmState.keeps_of rfl rfl rfl rfl rfl rfl rfl)
  have monitored : (ev.monitored x s).guard.onArm x (fun a => a.withTaken b) =
      (ev.watched x s).1.guard.onArm x fun a => a.withTaken b := by
    rw [Event.monitored_guard, Guard.onArm_onArm]
    rfl
  have rest := taken b (ev.acceptSample_finish_change x s)
  rw [monitored, Guard.onArm_self (g := (ev.acceptSample x s).finish.guard) (by rw [e]; rfl)] at rest
  exact Guard.followedBy_trans (Guard.followedBy_trans heard (taken b (ev.watched_change x s))) rest

end Sys2Proof.Machine


/-! # An accepted sample with good reads (O27)

The level and its timers, and what the event posts: withdrawals at a rise to HOLD, then the FAULT of each source that the
sample latches or asserts. -/

namespace Sys2Proof.Machine

/-! ## The changes of sources -/

/-- The change to report when a source's condition holds: none where it stood already (R119, R120). -/
def Sources.newly (u : Sources) (x : Arm) (src : Source) (b : Bool) : List SourceChange :=
  if b && !u.has src then [⟨x, src, if src.isLatched then .raised else .asserted⟩] else []

theorem Event.raiseIf_changes (ev : Event) (x : Arm) (src : Source) (b : Bool) :
    (if b then ev.raise x src else ev).changes =
      ev.changes ++ (ev.guard.arm x).unit.sources.newly x src b := by
  cases b
  · exact (List.append_nil _).symm
  · unfold Sources.newly
    rw [if_pos rfl, Event.raise_changes]
    cases (ev.guard.arm x).unit.sources.has src <;> rfl

theorem Event.setLive_changes (ev : Event) (x : Arm) (src : Source) (b : Bool) :
    (ev.setLive x src b).changes = ev.changes ++ (ev.guard.arm x).unit.sources.newly x src b := by
  rw [← Event.raiseIf_changes]
  cases b <;> rfl

/-- What counting a sample leaves: the changes and the action unit. -/
theorem Event.signalEarly_rest (ev : Event) (x : Arm) (early : Bool) :
    let counted := if early then (ev.signal x .samplesAccepted 1).signal x .samplesEarly 1
      else ev.signal x .samplesAccepted 1
    counted.changes = ev.changes ∧ (counted.guard.arm x).unit = (ev.guard.arm x).unit := by
  cases early
  all_goals
    simp only [if_true, if_false, Bool.false_eq_true, Event.signal_guard, Guard.signal_eq, Guard.arm_onArm]
    exact ⟨rfl, rfl⟩

section
variable (ev : Event) (x : Arm) (s : Sample)

/-- SAMPLE_EARLY changes first, then DISAGREE. -/
theorem Event.heard_changes : (ev.heard x s).changes = ev.changes ++
    ((ev.guard.arm x).unit.sources.newly x .sampleEarly
        (isEarly (ev.guard.arm x).intake.lastTime ev.guard.now (ev.guard.cfg.arm x).tMin) ++
      (ev.guard.arm x).unit.sources.newly x .disagree (s.disagrees (ev.guard.cfg.arm x))) := by
  unfold Event.heard Event.calculate Event.intake
  dsimp only
  generalize isEarly (ev.guard.arm x).intake.lastTime ev.guard.now (ev.guard.cfg.arm x).tMin = early
  obtain ⟨changes, unit⟩ := Event.signalEarly_rest (ev.setLive x .sampleEarly early) x early
  refine (Event.setLive_changes _ x .disagree _).trans ?_
  have sources : ((ev.setLive x .sampleEarly early).guard.arm x).unit.sources.has .disagree =
      (ev.guard.arm x).unit.sources.has .disagree := by
    rw [Event.setLive_guard, Guard.arm_onArm]
    rfl
  rw [Event.signal_guard, Guard.signal_eq, Guard.arm_onArm, ← List.append_assoc, ← Event.setLive_changes]
  unfold Sources.newly ArmState.signalled
  rw [unit, sources]
  exact congrArg (· ++ _) changes

theorem Event.latchVerdict_changes : (ev.latchVerdict x).changes = ev.changes ++
    ((ev.guard.arm x).unit.sources.newly x .reach (ev.guard.arm x).verdict.reach ++
      (ev.guard.arm x).unit.sources.newly x .intrusion (ev.guard.arm x).verdict.intrusion ++
      (ev.guard.arm x).unit.sources.newly x .fenceEntry (ev.guard.arm x).verdict.fenceEntry) := by
  unfold Event.latchVerdict
  dsimp only
  simp only [Event.raiseIf_changes, Event.raiseIf_guard, Guard.arm_onArm, List.append_assoc]
  rfl

end

/-- The sources that a sample can assert or raise, in the order of their changes. -/
def sampleSources : List (Source × FaultChange) :=
  [(.sampleEarly, .asserted), (.disagree, .asserted), (.reach, .raised), (.intrusion, .raised), (.fenceEntry, .raised)]

/-- A filter of a list taken apart at its head, as the changes of an event are. -/
theorem filter_cons_map {α β : Type} (q : α → Bool) (f : α → β) (a : α) (l : List α) :
    ((a :: l).filter q).map f = (if q a then [f a] else []) ++ (l.filter q).map f := by
  rw [List.filter_cons]
  split <;> rfl

/-- The changes of a sample are the sources that are new, in their order. -/
theorem Event.GoodSample.changes {ev : Event} {x : Arm} {s : Sample} (good : ev.GoodSample x s) :
    (ev.monitored x s).changes = ev.changes ++
      ((sampleSources.filter fun p => ((ev.monitored x s).guard.arm x).unit.sources.has p.1 &&
        !(ev.guard.arm x).unit.sources.has p.1).map fun p => ⟨x, p.1, p.2⟩) := by
  have watched : (ev.watched x s).1.changes = (ev.heard x s).changes := by
    obtain ⟨n, e⟩ := good.watched
    rw [e]
    rfl
  have judged : ((ev.heard x s).judge x).changes = (ev.watched x s).1.changes := rfl
  have arm : ((ev.heard x s).judge x).guard.arm x =
      { (ev.watched x s).1.guard.arm x with verdict := ev.verdict x s } := by
    rw [Event.judge_guard, Guard.arm_onArm]
    rfl
  have latched : ∀ a v : Bool, ((a || v) && !a) = (v && !a) := by decide
  have changes : (ev.monitored x s).changes = _ := Event.latchVerdict_changes _ x
  rw [changes, judged, watched, Event.heard_changes, arm, Event.monitored_unit]
  dsimp only
  rw [Event.watched_unit]
  simp only [sampleSources, filter_cons_map, List.filter_nil, List.map_nil, List.append_nil, List.append_assoc, Sources.newly,
    ArmState.monitored, ArmState.heard, Sources.has, latched]
  rfl

end Sys2Proof.Machine


/-! # O27 -/

namespace Sys2Proof.Machine

/-- Every claim is held, or one that a rise to the level `new` withdraws (R81). -/
def Event.WaitsForLevel (ev : Event) (x : Arm) (new : Level) : Prop := ∀ d ∈ ev.guard.claims, d.phase = .held ∨
  (d.arm = x ∧ d.isPlan = true ∧ (ev.guard.arm x).unit.level.code < 2 ∧ 2 ≤ new.code)

section
variable {ev : Event} {x : Arm} {s : Sample} (good : ev.GoodSample x s)
include good

/-- The guard that the level is computed on. -/
theorem Event.GoodSample.guard : ∃ n, (ev.monitored x s).guard =
    ((ev.heard x s).guard.drawn n).onArm x fun a => a.monitored (ev.verdict x s) := by
  obtain ⟨n, e⟩ := good.watched
  exact ⟨n, by rw [Event.monitored_guard, e]; rfl⟩

theorem Event.GoodSample.cfg : (ev.monitored x s).guard.cfg = ev.guard.cfg := by
  obtain ⟨n, e⟩ := good.guard
  rw [e, Guard.onArm_cfg]
  change (ev.heard x s).guard.cfg = _
  rw [Event.heard_guard, Guard.onArm_cfg]

theorem Event.GoodSample.now : (ev.monitored x s).guard.now = ev.guard.now := by
  obtain ⟨n, e⟩ := good.guard
  rw [e, Guard.onArm_now]
  change (ev.heard x s).guard.now = _
  rw [Event.heard_guard, Guard.onArm_now]

theorem Event.GoodSample.mode : (ev.monitored x s).guard.mode = ev.guard.mode := by
  obtain ⟨n, e⟩ := good.guard
  rw [e, Guard.onArm_mode]
  change (ev.heard x s).guard.mode = _
  rw [Event.heard_guard, Guard.onArm_mode]

theorem Event.GoodSample.nothingEnds (h : ev.guard.nothingEnds) : (ev.monitored x s).guard.nothingEnds := by
  obtain ⟨n, e⟩ := good.guard
  have heard : (ev.heard x s).guard.nothingEnds := by
    rw [Event.heard_guard]
    exact h.onArm fun i => by cases i <;> rfl
  have drawn : ((ev.heard x s).guard.drawn n).nothingEnds := heard
  rw [e]
  exact drawn.onArm fun i => by cases i <;> rfl

/-! ## The level -/

variable (reached : ev.reached = [])
include reached

/-- The sources at the end are those that the level was computed of. -/
theorem Event.GoodSample.sources : ((ev.acceptSample x s).finish.guard.arm x).unit.sources =
    ((ev.monitored x s).guard.arm x).unit.sources := by
  rw [(good.unit reached).1]
  exact ((ev.monitored x s).computeLevel_follows x).1

theorem Event.GoodSample.revoked : ((ev.acceptSample x s).finish.guard.arm x).unit.sources.revoked =
    (ev.guard.arm x).unit.sources.revoked := by
  rw [good.sources reached, Event.monitored_unit]
  rfl

/-- The level computed is that of the sources as the event leaves them. -/
theorem Event.GoodSample.levelFor (mode : ev.guard.mode ≠ .init) : (ev.monitored x s).guard.levelFor x =
    levelOf (ev.guard.cfg.arm x) ((ev.acceptSample x s).finish.guard.arm x).unit.sources := by
  unfold Guard.levelFor
  rw [good.mode, if_neg mode, good.cfg, good.sources reached]

theorem Event.GoodSample.level (mode : ev.guard.mode ≠ .init) : ((ev.acceptSample x s).finish.guard.arm x).unit.level =
      levelOf (ev.guard.cfg.arm x) ((ev.acceptSample x s).finish.guard.arm x).unit.sources ∧
    ev.guard.timersFollow x (ev.guard.arm x).unit ((ev.acceptSample x s).finish.guard.arm x).unit := by
  obtain ⟨-, level, timers⟩ := (ev.monitored x s).computeLevel_follows x
  rw [← good.levelFor reached mode, (good.unit reached).1]
  refine ⟨level, Guard.timersFollow_congr good.cfg good.now ?_ ?_ ?_ timers⟩
  all_goals rw [Event.monitored_unit]; rfl

/-! ## What ECHO carries -/

theorem Event.GoodSample.heldCount : (ev.acceptSample x s).finish.guard.heldCount x =
    (ev.acceptSample x s).guard.heldCount x := by
  unfold Guard.heldCount
  rw [(good.finish reached).1]

/-! ## What is posted -/

/-- FAULT of each source that is new and notified, in the order of the changes (R120). -/
theorem Event.GoodSample.faults (changes : ev.changes = []) :
    let u := ((ev.acceptSample x s).finish.guard.arm x).unit
    ((ev.monitored x s).settleLevel x).guard.faults (ev.monitored x s).changes =
      (sampleSources.filter fun p => u.sources.has p.1 && !(ev.guard.arm x).unit.sources.has p.1 &&
        (ev.guard.cfg.arm x).notify.of p.1).map fun p =>
          .toHost (.fault x p.1 p.2 (sourceAction (ev.guard.cfg.arm x) u.sources p.1) u.level) := by
  intro u
  have cfg : ((ev.monitored x s).settleLevel x).guard.cfg = ev.guard.cfg :=
    ((ev.monitored x s).settleLevel_change x).cfg.trans good.cfg
  have unit : (((ev.monitored x s).settleLevel x).guard.arm x).unit = u := by
    rw [Event.settleLevel_guard, ← (good.unit reached).1]
  have sources : ((ev.monitored x s).guard.arm x).unit.sources = u.sources := (good.sources reached).symm
  rw [good.changes, changes, List.nil_append, sources]
  unfold Guard.faults
  rw [cfg, List.filter_map, List.filter_filter, List.map_map]
  simp only [Function.comp_def, unit, Bool.and_comm]

variable (mode : ev.guard.mode ≠ .init)
  (waits : ev.WaitsForLevel x ((ev.acceptSample x s).finish.guard.arm x).unit.level)
include mode waits

theorem Event.GoodSample.plans {d : Claim} (hd : d ∈ ev.guard.claims) (waiting : d.phase = .waiting) :
    (ev.monitored x s).guard.risesToHold x ∧ d.isPlanOf x = true := by
  have old : ((ev.monitored x s).guard.arm x).unit.level = (ev.guard.arm x).unit.level := by
    rw [Event.monitored_unit]
    rfl
  rcases waits d hd with held | ⟨arm, plan, below, above⟩
  · rw [waiting] at held
    cases held
  · unfold Guard.risesToHold
    rw [old, good.levelFor reached mode, ← (good.level reached mode).1]
    exact ⟨⟨below, above⟩, by simp [Claim.isPlanOf, arm, plan]⟩

variable (hk : ev.guard.keysDiffer)
include hk

/-- The level settled, the withdrawals and the faults are posted. -/
theorem Event.GoodSample.settled (out : ev.out = []) : ((ev.monitored x s).settleLevel x).out =
    withdrawals (ev.guard.claims.filter Claim.isWaiting) ++
      ((ev.monitored x s).settleLevel x).guard.faults (ev.monitored x s).changes := by
  have plans := fun d hd w => good.plans reached mode waits (d := d) hd (Claim.isWaiting_iff.1 w)
  rw [Event.settleLevel_out (good.keysDiffer hk), good.out, out, List.nil_append, good.claims]
  congr 1
  split
  · refine congrArg withdrawals (List.filter_congr fun d hd => ?_)
    cases w : d.isWaiting
    · rfl
    · exact (plans d hd w).2
  · rename_i flat
    rw [List.filter_eq_nil_iff.2 fun d hd w => flat (plans d hd w).1]
    rfl

/-- With the waiting claims withdrawn, held claims alone are left to the handover. -/
theorem Event.GoodSample.handed_held : ∀ c ∈ (ev.handed x s).guard.claims, c.phase = .held := by
  intro c hc
  obtain ⟨b, hb, handed⟩ := (ev.handed_change x s).claim c hc
  obtain ⟨d, hd, entered⟩ := (((ev.monitored x s).settleLevel x).guard.setEntered_change x).claim b hb
  rw [Event.settleLevel_guard] at hd
  have held := Event.computeLevel_held (good.keysDiffer hk) x
    (fun c hc w => good.plans reached mode waits (good.claims ▸ hc) w) d hd
  exact handed.held (entered.held held)

/-- With no plan at its end, and no claim waiting but those that the level withdraws, the withdrawals and the faults are all
that is posted. -/
theorem Event.GoodSample.posted (ends : ev.guard.nothingEnds) (out : ev.out = []) (late : ev.late = []) :
    (ev.acceptSample x s).finish.out = withdrawals (ev.guard.claims.filter Claim.isWaiting) ++
      ((ev.monitored x s).settleLevel x).guard.faults (ev.monitored x s).changes := by
  have held := good.handed_held reached mode waits hk
  have echoed : (ev.acceptSample x s).out = (ev.handed x s).out ∧
      (ev.acceptSample x s).guard = (ev.handed x s).guard := by
    rw [Event.acceptSample_eq]
    rcases Event.evaluateIfCalled_idle held with e | e | e <;> rw [e] <;> exact ⟨rfl, rfl⟩
  have nothing := (ev.acceptSample_change x s).nothingEnds (good.nothingEnds ends)
  have last : (ev.acceptSample x s).late = [] :=
    good.accepted.late.trans (good.handed.steady.late.trans (good.leveled.late.trans late))
  rw [(Event.finish_idle (echoed.2 ▸ held) (good.reached reached) nothing).1, last, List.append_nil, echoed.1,
    good.handed.out]
  exact good.settled reached mode waits hk out

end

/-- What ECHO carries and where it goes. -/
theorem State.sample_echoed {s : State} {x : Arm} (serves : s.servesArm x) (tag : Byte) {p : List Byte}
    (length : sampleLengthOk p = true) :
    let new := parseSample p
    let ev := s.guard.event.acceptSample x new
    ∃ t, exec (.sample x tag p) s = .next t ∧ t.guard = ev.finish.guard ∧
      t.link = (s.armReplied x 0x20#8 tag ⟨.ok, [new.sequence, byte (ev.guard.arm x).unit.level.code,
        byte ((s.guard.arm x).calculator.sample s.guard.cfg x new).zone.code,
        byte (ev.finish.guard.arm x).verdict.code, byte (ev.guard.heldCount x)]⟩).link.deliver ev.finish.out := by
  intro new ev
  refine ⟨_, State.sample_served serves tag length, rfl, ?_⟩
  rw [Event.echoed_bytes]
  rfl

/-- Settles O27: the arm by `Event.acceptSample_finish_change`, the rest with good reads stage by stage. -/
theorem sampleIsAccepted : Obligations.SampleIsAccepted := by
  unfold Obligations.SampleIsAccepted
  intro s x tag p serves length new a c k
  obtain ⟨t, step, guard, link⟩ := State.sample_echoed serves tag length
  have verdict := s.guard.event.accepted_verdict x new
  refine ⟨t, _, _, _, _, step, ⟨_, link⟩, ?_⟩
  rw [guard]
  refine ⟨s.guard.event.accepted_intake x new, s.guard.event.accepted_calculator x new, rfl, rfl, fun outside => ?_,
    fun goodFor => ?_, ?_, s.guard.event.acceptSample_followedBy x new, fun reads => ?_⟩
  · rw [verdict]
    exact s.guard.event.verdict_outside x new outside
  · rw [verdict]
    exact s.guard.event.verdict_good x new rfl goodFor
  · have sources := s.guard.event.accepted_sources x new
    rw [← verdict] at sources
    exact sources
  · obtain ⟨findings, reads⟩ := reads
    rw [guard] at reads
    have mode := serves.1.2
    have good : s.guard.event.GoodSample x new := Event.goodSample findings rfl reads
    obtain ⟨level, timers⟩ := good.level rfl mode
    refine ⟨good.revoked rfl, level, timers, ?_, ?_, fun hk ends waits => ?_⟩
    · rw [(good.unit rfl).2]
    · rw [good.heldCount rfl]
    · rw [link, good.posted rfl mode waits hk ends rfl rfl, good.faults rfl rfl]
      rfl

end Sys2Proof.Machine


/-! # The stages of the footprint calculator (O42, O43, O44) -/

namespace Sys2Proof.Machine

/-! ## The clamped velocity (R36) -/

theorem clampVelocity_eq (v : Int) :
    clampVelocity v = if v < -10000 then -10000 else if 10000 < v then 10000 else v := by
  unfold clampVelocity
  split_ifs <;> omega

/-! ## The stopping distance (R37, R38) -/

/-- The quotient rounded up is the least number whose product with the divisor reaches the dividend. -/
theorem ceilDiv_le_iff {n d k : Nat} (hd : 0 < d) : ceilDiv n d ≤ k ↔ n ≤ k * d := by
  rw [show ceilDiv n d = n ⌈/⌉ d from (Nat.ceilDiv_eq_add_pred_div n d).symm, ceilDiv_le_iff_le_mul hd, Nat.mul_comm]

theorem lt_ceilDiv_iff {n d k : Nat} (hd : 0 < d) : k < ceilDiv n d ↔ k * d < n := by
  rw [← Nat.not_le, ceilDiv_le_iff hd, Nat.not_le]

theorem stoppingDistance_zero (tReact decel : Nat) : stoppingDistance tReact decel 0 = 0 := if_pos rfl

theorem stoppingDistance_moving {v : Int} (h : v ≠ 0) (tReact decel : Nat) : stoppingDistance tReact decel v =
    min 4095 (ceilDiv (v.natAbs * tReact * decel + 50 * (v.natAbs * v.natAbs)) (1000 * decel)) := if_neg h

theorem stoppingDistance_le (tReact decel : Nat) (v : Int) : stoppingDistance tReact decel v ≤ 4095 := by
  by_cases h : v = 0
  · rw [h, stoppingDistance_zero]
    exact Nat.zero_le _
  · rw [stoppingDistance_moving h]
    exact Nat.min_le_left _ _

/-- The braking term alone is positive for a tool that moves, whatever the reaction time is. -/
theorem stoppingNumerator_pos {v : Int} (h : v ≠ 0) (tReact decel : Nat) :
    0 < v.natAbs * tReact * decel + 50 * (v.natAbs * v.natAbs) := by
  have moves : 0 < v.natAbs := Int.natAbs_pos.2 h
  exact Nat.add_pos_right _ (Nat.mul_pos (by decide) (Nat.mul_pos moves moves))

/-! ## The stopping box (R40) -/

section
variable (c : ArmConfig) {s : Sample}

/-- The box of one of a sample's positions, with the sample's velocity (R39). -/
def Sample.boxAt (c : ArmConfig) (s : Sample) : Position → Box :=
  positionBox c.radius s.velocity.clamped (stoppingDistance c.tReact c.decel s.velocity.clamped.x)
    (stoppingDistance c.tReact c.decel s.velocity.clamped.y)

theorem stoppingBox_single (h : s.p2 = none) : stoppingBox c s = s.boxAt c s.p1 := by
  unfold stoppingBox
  rw [h]
  rfl

theorem stoppingBox_double {p2 : Position} (h : s.p2 = some p2) :
    stoppingBox c s = (s.boxAt c s.p1).bound (s.boxAt c p2) := by
  unfold stoppingBox
  rw [h]
  rfl

end

/-- Settles O42: the distance by the inequalities of the quotient rounded up, the rest stage by stage once the clamp's bounds
are read off. -/
theorem stoppingDistance_spec : Obligations.StoppingDistance := by
  unfold Obligations.StoppingDistance
  refine ⟨fun c new => ?_, fun tReact decel v hd => ⟨?_, fun moving => ?_, stoppingDistance_le tReact decel v⟩⟩
  · simp only [← clampVelocity_eq]
    exact ⟨rfl, rfl, stoppingBox_single c, fun p2 => stoppingBox_double c, fun falling => if_pos falling,
      fun rising => if_neg (Int.not_lt.2 rising)⟩
  · rintro rfl
    exact stoppingDistance_zero tReact decel
  · have divisor : 0 < 1000 * decel := Nat.mul_pos (by decide) hd
    have numerator := stoppingNumerator_pos moving tReact decel
    rw [stoppingDistance_moving moving]
    generalize v.natAbs * tReact * decel + 50 * (v.natAbs * v.natAbs) = n at numerator ⊢
    have positive : 1 ≤ ceilDiv n (1000 * decel) := (lt_ceilDiv_iff divisor).2 (by rwa [Nat.zero_mul])
    exact ⟨_, positive, (lt_ceilDiv_iff divisor).1 (Nat.sub_one_lt_of_le positive le_rfl),
      (ceilDiv_le_iff divisor).1 le_rfl, fun far => Nat.min_eq_left far.le, fun near => Nat.min_eq_right near⟩

/-! ## The rectangle of a box (R42, R43) -/

theorem ConfigSet.columnOf_mono {c : ConfigSet} {x x' : Int} (hp : 0 < c.pitch) (h : x ≤ x') :
    c.columnOf x ≤ c.columnOf x' :=
  Int.ediv_le_ediv (by omega) (Int.sub_le_sub_right h _)

theorem ConfigSet.rowOf_mono {c : ConfigSet} {y y' : Int} (hp : 0 < c.pitch) (h : y ≤ y') : c.rowOf y ≤ c.rowOf y' :=
  Int.ediv_le_ediv (by omega) (Int.sub_le_sub_right h _)

/-- The four comparisons by which a box misses the grid. -/
def Box.misses (b : Box) (c : ConfigSet) : Prop := c.columnOf b.xhi < 0 ∨ (c.nc : Int) - 1 < c.columnOf b.xlo ∨
  c.rowOf b.yhi < 0 ∨ (c.nr : Int) - 1 < c.rowOf b.ylo

theorem Box.cellRange_missing {b : Box} {c : ConfigSet} (h : b.misses c) : b.cellRange c = none := if_pos h

theorem Box.cellRange_meeting {b : Box} {c : ConfigSet} (h : ¬b.misses c) : b.cellRange c = some
    ⟨(max 0 (c.columnOf b.xlo)).toNat, (min ((c.nc : Int) - 1) (c.columnOf b.xhi)).toNat,
      (max 0 (c.rowOf b.ylo)).toNat, (min ((c.nr : Int) - 1) (c.rowOf b.yhi)).toNat⟩ := if_neg h

/-- A range of indices that meets 0..n-1, brought to its edges, is a range in it. -/
theorem clampedRange {lo hi : Int} {n : Nat} (order : lo ≤ hi) (hn : 0 < n) (reaches : ¬hi < 0)
    (starts : ¬(n : Int) - 1 < lo) :
    ((max 0 lo).toNat : Int) = max 0 lo ∧ ((min ((n : Int) - 1) hi).toNat : Int) = min ((n : Int) - 1) hi ∧
      (max 0 lo).toNat ≤ (min ((n : Int) - 1) hi).toNat ∧ (min ((n : Int) - 1) hi).toNat < n := by
  omega

theorem Rect.mem_cells {r : Rect} {k : Cell} : k ∈ r.cells ↔ r.covers k = true := by
  unfold Rect.cells Rect.covers
  rw [mem_cellsWhere]
  simp only [Bool.and_eq_true, decide_eq_true_eq]
  omega

theorem Rect.cells_nodup (r : Rect) : r.cells.Nodup := cellsWhere_nodup _ _ _ _

/-- A footprint's cells are those of the RECT shape with its bounds, which is valid where the footprint lies in the grid. -/
theorem Rect.cells_length {r : Rect} {c : ConfigSet}
    (v : (Shape.rect r.colLo r.colHi r.rowLo r.rowHi).valid c.nc c.nr = true) :
    r.cells.length = (r.colHi - r.colLo + 1) * (r.rowHi - r.rowLo + 1) := by
  have same : r.cells.Perm ((Shape.rect r.colLo r.colHi r.rowLo r.rowHi).cells c) := by
    refine (List.perm_ext_iff_of_nodup r.cells_nodup (Shape.cells_nodup _ c)).2 fun k => ?_
    rw [Rect.mem_cells, Shape.mem_rect_cells v]
    simp [Rect.covers, and_assoc]
  rw [same.length_eq, Shape.rect_cells_length v]

/-- Settles O43: each axis by `clampedRange`, the cells as those of a valid RECT shape. -/
theorem footprintInsideGrid : Obligations.FootprintInsideGrid := by
  unfold Obligations.FootprintInsideGrid
  intro b c pitch nc nr x y misses
  refine ⟨Box.cellRange_missing, fun meets => ⟨_, Box.cellRange_meeting meets, ?_⟩⟩
  obtain ⟨right, left, top, bottom⟩ : ¬_ ∧ ¬_ ∧ ¬_ ∧ ¬_ := by simpa only [misses, not_or] using meets
  obtain ⟨colLo, colHi, cols, inCols⟩ := clampedRange (c.columnOf_mono pitch x) nc right left
  obtain ⟨rowLo, rowHi, rows, inRows⟩ := clampedRange (c.rowOf_mono pitch y) nr top bottom
  exact ⟨colLo, colHi, rowLo, rowHi, cols, rows, inCols, inRows,
    Rect.cells_length (Shape.rect_valid_iff.2 ⟨cols, inCols, rows, inRows⟩), fun k => Rect.mem_cells,
    cellsWhere_rising _ _ _ _⟩

/-! ## The zone state (R44, R45) -/

section
variable {k : Calculator} {c : ConfigSet} {x : Arm} {s : Sample}

theorem Calculator.sample_footprint_low (low : lowestHeight (c.arm x) s < heightThreshold c k.zone) :
    (k.sample c x s).footprint = (stoppingBox (c.arm x) s).cellRange c := if_pos (decide_eq_true low)

theorem Calculator.sample_footprint_high (high : ¬lowestHeight (c.arm x) s < heightThreshold c k.zone) :
    (k.sample c x s).footprint = none := if_neg fun low => high (of_decide_eq_true low)

theorem Calculator.sample_zone_eq : (k.sample c x s).zone =
    if (k.sample c x s).footprint.isSome then .inside else .clear := rfl

theorem Calculator.sample_inside {r : Rect} (h : (k.sample c x s).footprint = some r) :
    (k.sample c x s).zone = .inside := by
  rw [Calculator.sample_zone_eq, h]
  rfl

theorem Calculator.sample_clear (h : (k.sample c x s).footprint = none) : (k.sample c x s).zone = .clear := by
  rw [Calculator.sample_zone_eq, h]
  rfl

end

/-- Settles O44: the footprint by the height test, the zone state by the footprint. -/
theorem zoneOfSample : Obligations.ZoneOfSample := by
  unfold Obligations.ZoneOfSample
  intro k c x new threshold box low
  refine ⟨rfl, rfl, fun r isLow meets => ?_, fun outside => ?_⟩
  · have footprint := (Calculator.sample_footprint_low isLow).trans meets
    exact ⟨Calculator.sample_inside footprint, footprint⟩
  · have footprint : (k.sample c x new).footprint = none := by
      by_cases isLow : low
      · exact (Calculator.sample_footprint_low isLow).trans (outside.resolve_left fun high => high isLow)
      · exact Calculator.sample_footprint_high isLow
    exact ⟨Calculator.sample_clear footprint, footprint⟩

end Sys2Proof.Machine


/-! # The verdict of some cells (O45) -/

namespace Sys2Proof.Machine

theorem Arm.eq_or_eq_other (x y : Arm) : y = x ∨ y = x.other := by
  cases x <;> cases y <;> decide

theorem Arm.other_ne (x : Arm) : x.other ≠ x := by
  cases x <;> decide

/-! ## The table of R51, by kind -/

theorem judgeEntry_owned (y : Arm) (x : Arm) {e : Entry} (h : e.owner = some y) :
    judgeEntry x e = if y = x then .empty else ⟨false, true, false⟩ := by
  unfold judgeEntry
  rw [h]

theorem judgeEntry_unowned (x : Arm) {e : Entry} (h : e.owner = none) : judgeEntry x e =
    if e.hostFence || e.faultFence ≠ .none then ⟨false, false, true⟩ else ⟨true, false, false⟩ := by
  unfold judgeEntry
  rw [h]

theorem judgeEntry_intrusion {x : Arm} {e : Entry} : (judgeEntry x e).intrusion = true ↔ e.owner = some x.other := by
  cases h : e.owner with
  | none =>
    rw [judgeEntry_unowned x h]
    split <;> simp
  | some y =>
    rw [judgeEntry_owned y x h]
    rcases Arm.eq_or_eq_other x y with rfl | rfl
    · simp [Verdict.empty, (Arm.other_ne y).symm]
    · simp [Arm.other_ne x]

theorem judgeEntry_fenceEntry {x : Arm} {e : Entry} : (judgeEntry x e).fenceEntry = true ↔
    e.owner = none ∧ (e.hostFence = true ∨ e.faultFence = .retired ∨ e.faultFence = .poisoned) := by
  cases h : e.owner with
  | none =>
    rw [judgeEntry_unowned x h]
    cases e.hostFence <;> cases e.faultFence <;> simp
  | some y =>
    rw [judgeEntry_owned y x h]
    split <;> simp [Verdict.empty]

theorem judgeEntry_reach {x : Arm} {e : Entry} : (judgeEntry x e).reach = true ↔
    e.owner = none ∧ e.hostFence = false ∧ e.faultFence = .none := by
  cases h : e.owner with
  | none =>
    rw [judgeEntry_unowned x h]
    cases e.hostFence <;> cases e.faultFence <;> simp
  | some y =>
    rw [judgeEntry_owned y x h]
    split <;> simp [Verdict.empty]

/-! ## The kinds of several cells (R52) -/

section
variable {kind : Verdict → Bool} (joins : ∀ a b : Verdict, kind (a.join b) = (kind a || kind b))
include joins

theorem foldl_join_kind (x : Arm) (es : List Entry) (v : Verdict) :
    kind (es.foldl (fun v e => v.join (judgeEntry x e)) v) = (kind v || es.any fun e => kind (judgeEntry x e)) := by
  induction es generalizing v with
  | nil => simp
  | cons e es ih => rw [List.foldl_cons, ih, joins, List.any_cons, Bool.or_assoc]

/-- A kind is in the verdict when some cell gives it. -/
theorem verdictOf_kind (absent : kind .empty = false) {x : Arm} {es : List Entry} :
    kind (verdictOf x es) = true ↔ ∃ e ∈ es, kind (judgeEntry x e) = true := by
  unfold verdictOf
  rw [foldl_join_kind joins, absent, Bool.false_or, List.any_eq_true]

end

/-- Settles O45: the kind of each cell by the table's rows, the verdict as their union. -/
theorem verdictOfCells : Obligations.VerdictOfCells := by
  unfold Obligations.VerdictOfCells
  intro x es own others fenced free
  refine ⟨fun e => ?_, ?_, ?_, ?_⟩
  · cases h : e.owner with
    | none => cases hostFence : e.hostFence <;> cases faultFence : e.faultFence <;> simp [own, others, fenced, free, *]
    | some y =>
      rcases Arm.eq_or_eq_other x y with rfl | rfl
      · simp [own, others, fenced, free, h, (Arm.other_ne y).symm]
      · simp [own, others, fenced, free, h, Arm.other_ne x]
  · exact (verdictOf_kind (kind := Verdict.intrusion) (fun _ _ => rfl) rfl).trans (by simp only [judgeEntry_intrusion, others])
  · exact (verdictOf_kind (kind := Verdict.fenceEntry) (fun _ _ => rfl) rfl).trans (by simp only [judgeEntry_fenceEntry, fenced])
  · exact (verdictOf_kind (kind := Verdict.reach) (fun _ _ => rfl) rfl).trans (by simp only [judgeEntry_reach, free])

end Sys2Proof.Machine


/-! # Claims that leave the table by name

`Guard.Leaves` says what reads, withdrawals and level changes do to the claim table, whether or not two claims share a name:
claims leave it by name, and those that stay keep their mark (name, origin, whether held, entered flag). -/

namespace Sys2Proof.Machine

/-- What of a claim only a grant, a sample and its end change. -/
structure ClaimMark where
  key : ClaimKey
  origin : Origin
  held : Bool
  entered : Bool

def Claim.mark (c : Claim) : ClaimMark := ⟨c.key, c.origin, c.isHeld, c.entered⟩

def Guard.marks (g : Guard) : List ClaimMark := g.claims.map Claim.mark

def Guard.Leaves (g h : Guard) : Prop := ∃ stays : ClaimKey → Bool, h.marks = g.marks.filter fun m => stays m.key

theorem Guard.Leaves.of_marks {g h : Guard} (e : h.marks = g.marks) : g.Leaves h :=
  ⟨fun _ => true, e.trans (List.filter_eq_self.2 fun _ _ => rfl).symm⟩

theorem Guard.Leaves.of_claims {g h : Guard} (e : h.claims = g.claims) : g.Leaves h :=
  .of_marks (congrArg (List.map Claim.mark) e)

theorem Guard.Leaves.refl (g : Guard) : g.Leaves g := .of_marks rfl

theorem Guard.Leaves.trans {g h k : Guard} (a : g.Leaves h) (b : h.Leaves k) : g.Leaves k := by
  obtain ⟨p, e⟩ := a
  obtain ⟨q, f⟩ := b
  exact ⟨fun n => q n && p n, by rw [f, e, List.filter_filter]⟩

theorem map_mark_map (cs : List Claim) {f : Claim → Claim} (h : ∀ c : Claim, (f c).mark = c.mark) :
    (cs.map f).map Claim.mark = cs.map Claim.mark := by
  rw [List.map_map]
  exact List.map_congr_left fun c _ => h c

theorem Guard.Leaves.onClaim (g : Guard) (k : ClaimKey) {f : Claim → Claim} (h : ∀ c : Claim, (f c).mark = c.mark) :
    g.Leaves (g.onClaim k f) :=
  .of_marks (map_mark_map g.claims fun c => by split; exacts [h c, rfl])

theorem Guard.Leaves.removeClaim (g : Guard) (k : ClaimKey) : g.Leaves (g.removeClaim k) :=
  ⟨fun n => n ≠ k, (List.filter_map (f := Claim.mark) (p := fun m => decide (m.key ≠ k)) (l := g.claims)).symm⟩

theorem Guard.Leaves.succeed (g : Guard) (c : Claim) : g.Leaves (g.succeed c) := by
  unfold Guard.succeed
  split
  · exact .of_marks (map_mark_map g.claims fun c => by split <;> rfl)
  · exact .refl g

theorem Guard.Leaves.poisonCell (g : Guard) (c : Cell) : g.Leaves (g.poisonCell c) := by
  refine .of_marks ?_
  have claims : (g.poisonCell c).claims = g.claims.map fun k => { k with
      effective := if k.isHeld then dropCell k.effective c else k.effective
      reserved := dropCell k.reserved c } := by
    unfold Guard.poisonCell Guard.onVacate
    dsimp only
    rw [Guard.reindexCell_claims, Guard.onSection_claims, Guard.onArm_claims, Guard.onArm_claims]
  rw [Guard.marks, claims]
  exact map_mark_map g.claims fun _ => rfl

theorem Guard.Leaves.refit (g : Guard) (k : ClaimKey) (old kept : CellSet) (n : Nat) : g.Leaves (g.refit k old kept n) :=
  .trans (h := g.onClaim k fun c => { c with
      effective := kept
      excluded := n - kept.length
      reserved := c.reserved.filter fun d => d ∈ kept })
    (.onClaim g k fun _ => rfl) (.of_claims (Guard.reindex_claims _ _))

/-- A claim stays with its mark, or no claim of its name is left. -/
theorem Guard.Leaves.stays_or_gone {g h : Guard} (l : g.Leaves h) {c : Claim} (hc : c ∈ g.claims) :
    (∃ d ∈ h.claims, d.mark = c.mark) ∨ ∀ d ∈ h.claims, d.key ≠ c.key := by
  obtain ⟨stays, e⟩ := l
  cases hs : stays c.key with
  | true =>
    have mem : c.mark ∈ g.marks.filter fun m => stays m.key := List.mem_filter.2 ⟨List.mem_map_of_mem hc, hs⟩
    rw [← e] at mem
    exact .inl (List.mem_map.1 mem)
  | false =>
    refine .inr fun d hd key => ?_
    have mem : d.mark ∈ h.marks := List.mem_map_of_mem hd
    rw [e] at mem
    have kept : stays d.key = true := (List.mem_filter.1 mem).2
    rw [key, hs] at kept
    cases kept

/-! ## Withdrawals -/

theorem Event.leaveWaiting_leaves (ev : Event) (c : Claim) (n : ArmNotice) :
    ev.guard.Leaves (ev.leaveWaiting c n).guard :=
  .trans (.trans (.removeClaim ev.guard c.key) (.succeed _ c)) (.of_claims (ev.leaveWaiting_claims c n))

/-- A fold of operations by each of which claims leave so. -/
theorem Event.foldl_leaves {α : Type} {f : Event → α → Event} (h : ∀ (ev : Event) (a : α), ev.guard.Leaves (f ev a).guard)
    (as : List α) (ev : Event) : ev.guard.Leaves (as.foldl f ev).guard := by
  induction as generalizing ev with
  | nil => exact .refl _
  | cons a as ih => exact .trans (h ev a) (ih _)

theorem Event.withdrawAll_leaves (ev : Event) (p : Claim → Bool) : ev.guard.Leaves (ev.withdrawAll p).guard := by
  refine Event.foldl_leaves (fun ev k => ?_) _ ev
  split
  · exact ev.leaveWaiting_leaves _ _
  · exact .refl _

theorem Event.settleLevel_leaves (ev : Event) (x : Arm) : ev.guard.Leaves (ev.settleLevel x).guard := by
  rw [Event.settleLevel_guard]
  rcases ev.computeLevel_cases x with ⟨-, e⟩ | ⟨-, -, claims, -⟩
  · rw [e]
    refine .trans (.of_claims ?_) (Event.withdrawAll_leaves (ev.onGuard fun g => g.changeLevel x _) _)
    simp [Guard.changeLevel, Guard.followLines, Guard.onUnit]
  · exact .of_claims claims

/-! ## Reads -/

theorem Guard.drawFinding_claims (g : Guard) : g.drawFinding.2.claims = g.claims := by
  unfold Guard.drawFinding
  split <;> rfl

theorem Event.rise_claims (ev : Event) (s n : Nat) : (ev.rise s n).guard.claims = ev.guard.claims := by
  unfold Event.rise
  split
  · dsimp only
    split <;> rfl
  · rfl

theorem Event.uncorrectable_claims (ev : Event) (c : Cell) : (ev.uncorrectable c).guard.claims = ev.guard.claims :=
  Event.rise_claims (ev.onGuard fun g => g.reindexCell c) c.sec 4

theorem Event.readRaw_leaves (ev : Event) (who : Reader) (c : Cell) : ev.guard.Leaves (ev.readRaw who c).1.guard := by
  unfold Event.readRaw
  split
  · exact .refl _
  · dsimp only
    refine .trans (.of_claims ev.guard.drawFinding_claims) ?_
    split
    · exact .refl _
    · exact .of_claims (Event.rise_claims { ev with guard := ev.guard.drawFinding.2 } c.sec 1)
    · rw [Event.postRead_guard]
      exact .of_claims (Event.uncorrectable_claims { ev with guard := ev.guard.drawFinding.2 } c)
    · rw [Event.postRead_guard]
      refine .trans (.of_claims (Event.uncorrectable_claims { ev with guard := ev.guard.drawFinding.2 } c)) ?_
      refine .trans ?_ (.poisonCell _ c)
      rw [Event.callEvaluation_guard, Event.postRead_guard]
      exact .refl _

theorem Event.formRaw_leaves (ev : Event) (cells : CellSet) : ev.guard.Leaves (ev.formRaw cells).1.guard := by
  induction cells generalizing ev with
  | nil => exact .refl _
  | cons c cs ih => exact .trans (ev.readRaw_leaves .arbiter c) (ih _)

theorem Event.reform_leaves (ev : Event) (k : ClaimKey) : ev.guard.Leaves (ev.reform k).guard := by
  unfold Event.reform
  split
  · exact .refl _
  · rename_i c _
    dsimp only
    have refitted : ∀ (cells : CellSet) (n : Nat),
        ev.guard.Leaves ((ev.formRaw cells).1.guard.refit k c.reserved (ev.formRaw cells).2 n) :=
      fun cells n => .trans (ev.formRaw_leaves cells) (.refit _ k _ _ n)
    split
    · split
      · exact .trans (refitted _ _) (Event.leaveWaiting_leaves _ _ _)
      · exact refitted _ _
    · exact refitted _ _

theorem Event.settleRounds_leaves (n : Nat) (ev : Event) : ev.guard.Leaves (ev.settleRounds n).guard := by
  induction n generalizing ev with
  | zero => exact .refl _
  | succ n ih =>
    unfold Event.settleRounds
    split
    · exact .refl _
    · exact .trans (Event.foldl_leaves Event.reform_leaves _ { ev with touched := [] }) (ih _)

theorem Event.readCell_leaves (ev : Event) (who : Reader) (c : Cell) : ev.guard.Leaves (ev.readCell who c).1.guard :=
  .trans (ev.readRaw_leaves who c) (Event.settleRounds_leaves 769 _)

theorem Event.readCells_leaves (ev : Event) (who : Reader) (cells : CellSet) :
    ev.guard.Leaves (ev.readCells who cells).1.guard := by
  induction cells generalizing ev with
  | nil => exact .refl _
  | cons c cs ih => exact .trans (ev.readCell_leaves who c) (ih _)

/-! ## An accepted sample up to its handover -/

/-- Without a footprint no flag is set (R58). -/
theorem Guard.setEntered_outside {g : Guard} {x : Arm} (h : (g.arm x).calculator.footprint = none) :
    g.setEntered x = g := by
  unfold Guard.setEntered
  have same : (g.claims.map fun c => if c.isHeld && c.arm = x && c.effective.any (covered none)
      then { c with entered := true } else c) = g.claims := by
    refine (List.map_congr_left fun c _ => ?_).trans g.claims.map_id
    simp [covered]
  simp only [h, same]

section
variable (ev : Event) {x : Arm} {s : Sample} (clear : ((ev.guard.arm x).calculator.sample ev.guard.cfg x s).zone = .clear)
include clear

theorem Event.leveled_guard_clear : (ev.leveled x s).guard = ((ev.monitored x s).settleLevel x).guard := by
  have footprint := (Calculator.sample_zone _ ev.guard.cfg x s).2 (by rw [clear]; decide)
  unfold Event.leveled
  rw [Event.onGuard_guard]
  refine Guard.setEntered_outside ?_
  rw [← Guard.setEntered_arm _ x x, ← footprint, ← ev.leveled_calculator]
  rfl

theorem Event.leveled_leaves : ev.guard.Leaves (ev.leveled x s).guard := by
  rw [ev.leveled_guard_clear clear]
  have watched : (ev.heard x s).guard.Leaves (ev.watched x s).1.guard := Event.readCells_leaves _ .monitor _
  exact .trans (.trans (.of_claims (ev.heard_claims x s)) watched)
    (.trans (.of_claims (ev.monitored_claims x s)) (Event.settleLevel_leaves _ x))

end

end Sys2Proof.Machine


/-! # Picks and tallies

`ArmState.Unscored` says of two states of an arm that nothing was picked or skipped between them; `ArmState.picking` is what
completing one claim adds to the tallies and the counters of its arm (R111). -/

namespace Sys2Proof.Machine

/-! ## Nothing picked, nothing skipped -/

/-- Every plan left was there with the same picks and skips, and a counter of PICKS stays. -/
structure ArmState.Unscored (a b : ArmState) : Prop where
  slot : ∀ i r, (b.slot i).plan? = some r → ∃ q, (a.slot i).plan? = some q ∧ r.picked = q.picked ∧ r.skipped = q.skipped
  selection : ∀ n, (b.counters.selectable.get n).selection = (a.counters.selectable.get n).selection
  picks : ∀ n, (a.counters.selectable.get n).selection = .picks →
    (b.counters.selectable.get n).value = (a.counters.selectable.get n).value

theorem ArmState.Unscored.of_eq {a b : ArmState} (slot0 : b.slot0 = a.slot0) (slot1 : b.slot1 = a.slot1)
    (selectable : b.counters.selectable = a.counters.selectable) : a.Unscored b := by
  have slots : ∀ i, b.slot i = a.slot i := fun i => by cases i; exacts [slot0, slot1]
  exact ⟨fun i r h => ⟨r, slots i ▸ h, rfl, rfl⟩, fun n => by rw [selectable], fun n _ => by rw [selectable]⟩

theorem ArmState.Unscored.refl (a : ArmState) : a.Unscored a := .of_eq rfl rfl rfl

theorem ArmState.Unscored.trans {a b c : ArmState} (h : a.Unscored b) (k : b.Unscored c) : a.Unscored c := by
  refine ⟨fun i r hr => ?_, fun n => (k.selection n).trans (h.selection n), fun n hn => ?_⟩
  · obtain ⟨q, hq, picked, skipped⟩ := k.slot i r hr
    obtain ⟨p, hp, picked', skipped'⟩ := h.slot i q hq
    exact ⟨p, hp, picked.trans picked', skipped.trans skipped'⟩
  · exact (k.picks n ((h.selection n).trans hn)).trans (h.picks n hn)

theorem ArmState.slot_setSlot_eq (a : ArmState) (i j : SlotIx) (s : Slot) :
    (a.setSlot i s).slot j = if j = i then s else a.slot j := by
  cases i <;> cases j <;> rfl

theorem ArmState.setSlot_counters (a : ArmState) (i : SlotIx) (s : Slot) : (a.setSlot i s).counters = a.counters := by
  cases i <;> rfl

theorem Slot.plan?_onPlan (s : Slot) (f : Plan → Plan) : (s.onPlan f).plan? = s.plan?.map f := by
  cases s <;> rfl

/-- A slot changed to one whose plan, if any, has the same picks and skips. -/
theorem ArmState.Unscored.setSlot (a : ArmState) (i : SlotIx) {s : Slot}
    (h : ∀ r, s.plan? = some r → ∃ q, (a.slot i).plan? = some q ∧ r.picked = q.picked ∧ r.skipped = q.skipped) :
    a.Unscored (a.setSlot i s) := by
  refine ⟨fun j r hr => ?_, fun n => by rw [ArmState.setSlot_counters], fun n _ => by rw [ArmState.setSlot_counters]⟩
  rw [ArmState.slot_setSlot_eq] at hr
  split at hr
  · rename_i e
    exact e ▸ h r hr
  · exact ⟨r, hr, rfl, rfl⟩

theorem ArmState.signalled_slot (a : ArmState) (e : CountEvent) (n : Nat) (i : SlotIx) :
    (a.signalled e n).slot i = a.slot i := by
  cases i <;> rfl

theorem ArmState.Unscored.signalled (a : ArmState) {e : CountEvent} (n : Nat) (h : e ≠ .picks) :
    a.Unscored (a.signalled e n) := by
  refine ⟨fun i r hr => ⟨r, a.signalled_slot e n i ▸ hr, rfl, rfl⟩, fun j => ?_, fun j hj => ?_⟩
  · rw [ArmState.signalled_counter, Counter.signal_selection]
  · rw [ArmState.signalled_counter, Counter.signal_value, hj, if_neg h.symm]

/-- A missed entry is tallied apart from the picks and the skips. -/
theorem ArmState.Unscored.missed (a : ArmState) (i : SlotIx) : a.Unscored (a.onPlan i (Plan.tally .missed)) := by
  refine .setSlot a i fun r hr => ?_
  rw [Slot.plan?_onPlan] at hr
  obtain ⟨q, hq, rfl⟩ := Option.map_eq_some_iff.1 hr
  exact ⟨q, hq, rfl, rfl⟩

/-! ## What a pick adds -/

/-- An origin in a given slot. -/
def Origin.inSlot (i : SlotIx) : Origin → Bool
  | .plan j _ => j = i
  | .supervisor => false

/-- An origin in a plan. -/
def Origin.inPlan : Origin → Bool
  | .plan _ _ => true
  | .supervisor => false

theorem Claim.fromSlot_eq {c : Claim} {x : Arm} (h : c.arm = x) (i : SlotIx) : c.fromSlot x i = c.origin.inSlot i := by
  unfold Claim.fromSlot
  rw [decide_eq_true h, Bool.true_and]
  rfl

/-- An arm once a claim of the given origin is picked. -/
def ArmState.picking (a : ArmState) : Origin → ArmState
  | .supervisor => a
  | .plan i _ => (a.onPlan i (Plan.tally .picked)).signalled .picks 1

theorem ArmState.picking_slot {a : ArmState} {o : Origin} {i : SlotIx} {r : Plan}
    (h : ((a.picking o).slot i).plan? = some r) : ∃ q, (a.slot i).plan? = some q ∧ r.skipped = q.skipped ∧
      r.picked = if o.inSlot i then sat16 (q.picked + 1) else q.picked := by
  cases o with
  | supervisor => exact ⟨r, h, rfl, rfl⟩
  | plan j m =>
    unfold ArmState.picking at h
    rw [ArmState.signalled_slot, ArmState.onPlan, ArmState.slot_setSlot_eq] at h
    by_cases e : i = j
    · subst e
      rw [if_pos rfl, Slot.plan?_onPlan] at h
      obtain ⟨q, hq, rfl⟩ := Option.map_eq_some_iff.1 h
      exact ⟨q, hq, rfl, by simp [Origin.inSlot, Plan.tally]⟩
    · rw [if_neg e] at h
      exact ⟨r, h, rfl, by simp [Origin.inSlot, Ne.symm e]⟩

theorem ArmState.picking_selection (a : ArmState) (o : Origin) (n : Nat) :
    ((a.picking o).counters.selectable.get n).selection = (a.counters.selectable.get n).selection := by
  cases o with
  | supervisor => rfl
  | plan j m =>
    rw [ArmState.picking, ArmState.signalled_counter, Counter.signal_selection, ArmState.onPlan,
      ArmState.setSlot_counters]

theorem ArmState.picking_picks {a : ArmState} {n : Nat} (h : (a.counters.selectable.get n).selection = .picks)
    (o : Origin) : ((a.picking o).counters.selectable.get n).value =
      if o.inPlan then sat32 ((a.counters.selectable.get n).value + 1) else (a.counters.selectable.get n).value := by
  cases o with
  | supervisor => rfl
  | plan j m =>
    rw [ArmState.picking, ArmState.signalled_counter, Counter.signal_value, ArmState.onPlan, ArmState.setSlot_counters, h]
    rfl

/-- Of a plan whose claims are picked one after the other the picked tally rises by as many, as far as it can. -/
theorem ArmState.picked_slot {os : List Origin} {a : ArmState} {i : SlotIx} {r : Plan}
    (h : ((os.foldl ArmState.picking a).slot i).plan? = some r) : ∃ q, (a.slot i).plan? = some q ∧
      r.skipped = q.skipped ∧ (q.picked ≤ 65535 → r.picked = min 65535 (q.picked + os.countP (Origin.inSlot i))) := by
  induction os generalizing a with
  | nil => exact ⟨r, h, rfl, fun le => (Nat.min_eq_right le).symm⟩
  | cons o os ih =>
    obtain ⟨p, hp, skipped, picked⟩ := ih h
    obtain ⟨q, hq, skipped', picked'⟩ := ArmState.picking_slot hp
    refine ⟨q, hq, skipped.trans skipped', fun le => ?_⟩
    rw [List.countP_cons]
    unfold sat16 at picked'
    split at picked'
    · rename_i here
      rw [picked (by omega), if_pos here]
      omega
    · rename_i other
      rw [picked (by omega), if_neg other, picked', Nat.add_zero]

/-- So does a counter of PICKS. -/
theorem ArmState.picked_picks {os : List Origin} {a : ArmState} {n : Nat}
    (h : (a.counters.selectable.get n).selection = .picks) (le : (a.counters.selectable.get n).value ≤ 4294967295) :
    ((os.foldl ArmState.picking a).counters.selectable.get n).value =
      min 4294967295 ((a.counters.selectable.get n).value + os.countP Origin.inPlan) := by
  induction os generalizing a with
  | nil => exact (Nat.min_eq_right le).symm
  | cons o os ih =>
    have step := ArmState.picking_picks h o
    unfold sat32 at step
    rw [List.countP_cons, List.foldl_cons, ih ((a.picking_selection o n).trans h) (by split at step <;> omega)]
    split at step
    · rename_i plan
      rw [if_pos plan]
      omega
    · rename_i other
      rw [if_neg other, step, Nat.add_zero]

theorem ArmState.picked_selection (os : List Origin) (a : ArmState) (n : Nat) :
    ((os.foldl ArmState.picking a).counters.selectable.get n).selection = (a.counters.selectable.get n).selection := by
  induction os generalizing a with
  | nil => rfl
  | cons o os ih => exact (ih _).trans (a.picking_selection o n)

/-! ## Operations that pick and skip nothing -/

/-- The same of both arms. -/
def Guard.Unscored (g h : Guard) : Prop := ∀ x, (g.arm x).Unscored (h.arm x)

theorem Guard.Unscored.of_arms {g h : Guard} (e : ∀ x, h.arm x = g.arm x) : g.Unscored h := fun x => e x ▸ .refl _

theorem Guard.Unscored.refl (g : Guard) : g.Unscored g := .of_arms fun _ => rfl

theorem Guard.Unscored.trans {g h k : Guard} (a : g.Unscored h) (b : h.Unscored k) : g.Unscored k :=
  fun x => (a x).trans (b x)

theorem Guard.Unscored.onArm (g : Guard) (x : Arm) {f : ArmState → ArmState} (h : (g.arm x).Unscored (f (g.arm x))) :
    g.Unscored (g.onArm x f) := by
  intro y
  rw [Guard.arm_onArm_eq]
  split
  · rename_i e
    exact e ▸ h
  · exact .refl _

theorem Guard.Unscored.onVacate (g : Guard) (x : Arm) (f : CellSet → CellSet) : g.Unscored (g.onVacate x f) :=
  .onArm g x (.of_eq rfl rfl rfl)

theorem Guard.Unscored.signal (g : Guard) (x : Arm) {e : CountEvent} (n : Nat) (h : e ≠ .picks) :
    g.Unscored (g.signal x e n) := .onArm g x (.signalled _ n h)

theorem Event.settleMissed_unscored (ev : Event) (c : Claim) : ev.guard.Unscored (ev.settleEntry c .missed).guard := by
  unfold Event.settleEntry
  split
  · exact .refl _
  · exact .trans (.onArm ev.guard c.arm (.missed _ _)) (.signal _ c.arm (e := .misses) 1 CountEvent.noConfusion)

theorem Event.leaveWaiting_unscored (ev : Event) (c : Claim) (n : ArmNotice) :
    ev.guard.Unscored (ev.leaveWaiting c n).guard :=
  .trans (.of_arms fun x => by simp) (Event.settleMissed_unscored
    ((ev.onGuard fun g => ((g.removeClaim c.key).succeed c).reindex c.reserved).post (.toArm c.arm n)) c)

/-- A fold of operations that each pick and skip nothing. -/
theorem Event.foldl_unscored {α : Type} {f : Event → α → Event}
    (h : ∀ (ev : Event) (a : α), ev.guard.Unscored (f ev a).guard) (as : List α) (ev : Event) :
    ev.guard.Unscored (as.foldl f ev).guard := by
  induction as generalizing ev with
  | nil => exact .refl _
  | cons a as ih => exact .trans (h ev a) (ih _)

theorem Event.withdrawAll_unscored (ev : Event) (p : Claim → Bool) : ev.guard.Unscored (ev.withdrawAll p).guard := by
  refine Event.foldl_unscored (fun ev k => ?_) _ ev
  split
  · exact ev.leaveWaiting_unscored _ _
  · exact .refl _

theorem Guard.changeLevel_unscored (g : Guard) (x : Arm) (l : Level) : g.Unscored (g.changeLevel x l) :=
  .trans (.onArm g x (.of_eq rfl rfl rfl)) (.onArm _ x (.of_eq rfl rfl rfl))

theorem Event.settleLevel_unscored (ev : Event) (x : Arm) : ev.guard.Unscored (ev.settleLevel x).guard := by
  rw [Event.settleLevel_guard]
  unfold Event.computeLevel
  dsimp only
  split
  · exact .refl _
  · split
    · exact .trans (ev.guard.changeLevel_unscored x _) (Event.withdrawAll_unscored (ev.onGuard fun g => g.changeLevel x _) _)
    · exact ev.guard.changeLevel_unscored x _

/-- Taking a sample in counts events of its own (R164). -/
theorem ArmState.heard_unscored (a : ArmState) (cfg : ConfigSet) (x : Arm) (now : Nat) (s : Sample) :
    a.Unscored (a.heard cfg x now s) := by
  have counted := a.counted_counter (isEarly a.intake.lastTime now (cfg.arm x).tMin)
    (samplesLost a.intake.lastSequence s.sequence) s.velocity.clampCount
  refine ⟨fun i r hr => ⟨r, ?_, rfl, rfl⟩, fun n => (counted n).1, fun n hn => (counted n).2.trans ?_⟩
  · cases i <;> exact hr
  · unfold Counter.atSample
    rw [hn]

theorem Guard.drawn_arm (g : Guard) (n : Nat) (x : Arm) : (g.drawn n).arm x = g.arm x := by
  cases x <;> rfl

theorem Event.vacateProgress_unscored {ev : Event} (good : ev.guard.foretoldGood) (touched : ev.touched = []) {x : Arm}
    (reads : (ev.vacateProgress x).guard.reads = ev.guard.reads) :
    ev.guard.Unscored (ev.vacateProgress x).guard := by
  obtain ⟨n, e⟩ := Event.vacateProgress_drawn good touched reads
  rw [e]
  exact .trans (.trans (.of_arms (h := (ev.drawn n).guard) (ev.guard.drawn_arm n)) (.onVacate _ x fun v => minusCells v _))
    (.of_arms (Guard.reindex_arm _ _))

/-! ## The evaluation and the end of an event -/

theorem Guard.grant_unscored (g : Guard) (c : Claim) : g.Unscored (g.grant c) := by
  refine .trans (.trans (.of_arms (Guard.onClaim_arm g c.key Claim.granted)) (.onVacate _ c.arm fun v => minusCells v c.effective))
    (.of_arms fun x => ?_)
  unfold Guard.grant
  rw [Guard.reindex_arm, ← Guard.succeed_arm ((g.onClaim c.key Claim.granted).onVacate c.arm _) c]
  cases x <;> rfl

theorem Event.grant_unscored (ev : Event) (c : Claim) : ev.guard.Unscored (ev.grant c).guard :=
  .trans (.trans (ev.guard.grant_unscored c) (.signal _ c.arm (e := .grants) 1 CountEvent.noConfusion))
    (.signal _ c.arm (e := .cellsExcluded) c.excluded CountEvent.noConfusion)

theorem Event.takeCandidate_unscored {ev : Event} (good : ev.guard.foretoldGood) (touched : ev.touched = []) {k : ClaimKey}
    (reads : (ev.takeCandidate k).guard.reads = ev.guard.reads) : ev.guard.Unscored (ev.takeCandidate k).guard := by
  rw [Event.takeCandidate_reads] at reads
  obtain ⟨n, e⟩ := Event.testClaim_drawn 769 good touched reads
  have drawn : ev.guard.Unscored (ev.drawn n).guard := .of_arms (ev.guard.drawn_arm n)
  unfold Event.takeCandidate
  dsimp only
  rw [e]
  refine .trans drawn ?_
  split
  · exact .refl _
  · split
    · exact Event.grant_unscored _ _
    · split
      · exact .of_arms fun x => Guard.reserve_arm _ _ x
      · exact .refl _

theorem Event.evaluateRounds_unscored (n : Nat) {ev : Event} (good : ev.guard.foretoldGood) (touched : ev.touched = [])
    {taken : List ClaimKey} (reads : (ev.evaluateRounds n taken).guard.reads = ev.guard.reads) :
    ev.guard.Unscored (ev.evaluateRounds n taken).guard := by
  induction n generalizing ev taken with
  | zero => exact .refl _
  | succ n ih =>
    unfold Event.evaluateRounds at reads ⊢
    split
    · exact .refl _
    · rename_i b found
      rw [found] at reads
      dsimp only at reads ⊢
      have first := Nat.le_antisymm (reads ▸ Event.evaluateRounds_reads_le n _ _)
        (Event.takeCandidate_reads_le { ev with reformed := [] } b.key)
      obtain ⟨step, -⟩ := Event.takeCandidate_holdsOn (ev := { ev with reformed := [] }) good touched first
      exact .trans (Event.takeCandidate_unscored (ev := { ev with reformed := [] }) good touched first)
        (ih step.good (step.touched.trans touched) (reads.trans first.symm))

theorem Event.evaluateIfCalled_unscored {ev : Event} (good : ev.guard.foretoldGood) (touched : ev.touched = [])
    (reads : ev.evaluateIfCalled.guard.reads = ev.guard.reads) : ev.guard.Unscored ev.evaluateIfCalled.guard := by
  unfold Event.evaluateIfCalled Event.runEvaluation at reads ⊢
  split
  · rename_i called
    rw [if_pos called] at reads
    split
    · exact .refl _
    · rename_i mode
      rw [if_neg mode] at reads
      exact Event.evaluateRounds_unscored 4000 good touched reads
  · exact .refl _

/-- A plan that ends leaves its slot EMPTY (R112). -/
theorem Event.endPlan_unscored (ev : Event) (x : Arm) (i : SlotIx) : ev.guard.Unscored (ev.endPlan x i).guard := by
  unfold Event.endPlan
  split
  · split
    · exact .refl _
    · exact .onArm _ x (.setSlot _ i fun r h => by cases h)
  · exact .refl _

theorem Event.finish_unscored {ev : Event} (evaluated : ev.evaluate = false) (reached : ev.reached = []) :
    ev.guard.Unscored ev.finish.guard := by
  unfold Event.finish Event.evaluateIfCalled
  rw [if_neg (by simp [evaluated]), Event.dealWithSections_none 8 (ev := ev.afterReply) reached]
  refine .trans ?_ (.of_arms (Event.endDraining_arm _))
  unfold Event.endPlans
  exact Event.foldl_unscored (f := fun ev (j : Arm × SlotIx) => ev.endPlan j.1 j.2) (fun ev j => ev.endPlan_unscored j.1 j.2) _
    { ev.afterReply with judged := [] }

end Sys2Proof.Machine


/-! # Claims completed at a CLEAR sample (O29) -/

namespace Sys2Proof.Machine

/-- The claims of an arm that a CLEAR sample after an INSIDE one completes (R90). -/
def Guard.completing (g : Guard) (x : Arm) : List Claim := g.claims.filter fun c => c.arm = x && c.isHeld && c.entered

theorem Guard.mem_completing {g : Guard} {x : Arm} {c : Claim} :
    c ∈ g.completing x ↔ c ∈ g.claims ∧ c.arm = x ∧ c.phase = .held ∧ c.entered = true := by
  simp [Guard.completing, Claim.isHeld, and_assoc]

/-- A claim is completed or not by its mark. -/
theorem Guard.completing_marks (g : Guard) (x : Arm) : (g.completing x).map Claim.mark =
    g.marks.filter fun m => m.key.arm = x && m.held && m.entered :=
  (List.filter_map (f := Claim.mark) (p := fun m => decide (m.key.arm = x) && m.held && m.entered) (l := g.claims)).symm

/-- The claims to complete are the same after some claims left by name, none of them to complete. -/
theorem Guard.Leaves.completing {g h : Guard} {x : Arm} (l : g.Leaves h)
    (stay : ∀ c ∈ g.completing x, ∃ d ∈ h.claims, d.key = c.key) :
    (h.completing x).map Claim.mark = (g.completing x).map Claim.mark := by
  obtain ⟨stays, e⟩ := l
  rw [Guard.completing_marks h, e, List.filter_comm, ← Guard.completing_marks]
  refine List.filter_eq_self.2 fun m hm => ?_
  obtain ⟨c, hc, rfl⟩ := List.mem_map.1 hm
  obtain ⟨d, hd, key⟩ := stay c hc
  have mem : d.mark ∈ h.marks := List.mem_map_of_mem hd
  rw [e] at mem
  have kept : stays d.key = true := (List.mem_filter.1 mem).2
  rwa [key] at kept

/-! ## Completed claims leave -/

theorem Guard.claim?_none {g : Guard} {k : ClaimKey} (h : g.claim? k = none) : ∀ c ∈ g.claims, c.key ≠ k :=
  fun c hc => by simpa using List.find?_eq_none.1 h c hc

theorem Guard.removeClaim_gone (g : Guard) (k : ClaimKey) : ∀ c ∈ (g.removeClaim k).claims, c.key ≠ k :=
  fun c hc => by simpa using (List.mem_filter.1 hc).2

/-- A name that is gone stays gone. -/
theorem Guard.Change.gone {g h : Guard} (c : Guard.Change g h) {k : ClaimKey} (gone : ∀ d ∈ g.claims, d.key ≠ k) :
    ∀ d ∈ h.claims, d.key ≠ k := by
  intro d hd
  obtain ⟨e, he, keeps⟩ := c.claim d hd
  exact keeps.key ▸ gone e he

theorem Event.endHeld_gone (ev : Event) (k : ClaimKey) (o : EntryOutcome) :
    ∀ d ∈ (ev.endHeld k o).guard.claims, d.key ≠ k := by
  unfold Event.endHeld
  split
  · rename_i none
    exact Guard.claim?_none none
  · dsimp only
    split
    · rename_i none
      exact Guard.claim?_none none
    · have removed : ∀ (e : Event) (c : Claim),
          ∀ d ∈ ((e.onGuard fun g => g.removeClaim k).settleEntry c o).guard.claims, d.key ≠ k := by
        intro e c
        rw [Event.settleEntry_claims]
        exact e.guard.removeClaim_gone k
      split
      · unfold Event.letGo
        rw [Event.callEvaluation_guard, Event.onGuard_guard, Guard.reindex_claims]
        exact removed _ _
      · rw [Event.onGuard_guard, Guard.reindex_claims, Guard.onVacate, Guard.onArm_claims]
        exact removed _ _

theorem Event.endEach_gone (o : EntryOutcome) (ks : List ClaimKey) (ev : Event) {k : ClaimKey} (hk : k ∈ ks) :
    ∀ d ∈ (ks.foldl (fun ev k => ev.endHeld k o) ev).guard.claims, d.key ≠ k := by
  induction ks generalizing ev with
  | nil => cases hk
  | cons j ks ih =>
    rcases List.mem_cons.1 hk with rfl | hk
    · exact (Event.foldl_change _ (fun ev k => ev.endHeld_change k o) ks (ev.endHeld k o)).gone (ev.endHeld_gone k o)
    · exact ih _ hk

theorem Event.complete_gone (ev : Event) {x : Arm} {c : Claim} (hc : c ∈ ev.guard.completing x) :
    ∀ d ∈ (ev.complete x).guard.claims, d.key ≠ c.key :=
  Event.endEach_gone .picked _ ev (List.mem_map_of_mem hc)

/-! ## The handover of an arm that is CLEAR, with good reads -/

/-- A claim that is completed: it adds to the tallies and the counters of its arm, and its record leaves the table. -/
theorem Event.settlePicked_arm (ev : Event) (c : Claim) :
    (ev.settleEntry c .picked).guard.arm c.arm = (ev.guard.arm c.arm).picking c.origin := by
  unfold Event.settleEntry
  cases c.origin with
  | supervisor => rfl
  | plan i n =>
    dsimp only
    unfold Event.tally
    rw [Event.signal_guard, Guard.signal_eq, Guard.arm_onArm, Event.onGuard_guard, Guard.arm_onArm]
    rfl

theorem Event.endHeld_clear {ev : Event} (good : ev.guard.foretoldGood) (touched : ev.touched = [])
    (hk : ev.guard.keysDiffer) {c : Claim} (hc : c ∈ ev.guard.claims)
    (clear : (ev.guard.arm c.arm).calculator.zone = .clear)
    (reads : (ev.endHeld c.key .picked).guard.reads = ev.guard.reads) :
    (ev.endHeld c.key .picked).guard.arm c.arm = (ev.guard.arm c.arm).picking c.origin ∧
      (ev.endHeld c.key .picked).guard.claims = (ev.guard.removeClaim c.key).claims := by
  have found := hk.claim? hc
  have read : (ev.readCells .handover (ev.guard.ownCellsOf c)).1.guard.reads = ev.guard.reads := by
    refine Nat.le_antisymm ?_ (ev.readCells_reads_le _ _)
    rw [← reads]
    unfold Event.endHeld
    rw [found]
    dsimp only
    split
    · exact Nat.le_refl _
    · split <;> simp
  obtain ⟨n, e⟩ := Event.readCells_drawn good touched read
  have again : (ev.drawn n).guard.claim? c.key = some c := found
  have arm : (ev.drawn n).guard.arm c.arm = ev.guard.arm c.arm := ev.guard.drawn_arm n _
  have settled := Event.settlePicked_arm ((ev.drawn n).onGuard fun g => g.removeClaim c.key) c
  rw [Event.onGuard_guard, Guard.removeClaim_arms, arm] at settled
  have zone : ((((ev.drawn n).onGuard fun g => g.removeClaim c.key).settleEntry c .picked).guard.arm
      c.arm).calculator.zone = .clear := by
    obtain ⟨-, calculator, -⟩ :=
      (Event.settleEntry_change ((ev.drawn n).onGuard fun g => g.removeClaim c.key) c .picked).armKeeps c.arm
    rw [calculator, Event.onGuard_guard, Guard.removeClaim_arms, arm]
    exact clear
  unfold Event.endHeld
  rw [found]
  dsimp only
  rw [e, again]
  dsimp only
  rw [if_pos zone]
  unfold Event.letGo
  rw [Event.callEvaluation_guard, Event.onGuard_guard, Guard.reindex_arm, Guard.reindex_claims, Event.settleEntry_claims]
  exact ⟨settled, rfl⟩

/-- Claims of a CLEAR arm completed, one after the other: each adds its pick, and every claim of another name stays. -/
theorem Event.completeEach {x : Arm} (cs : List Claim) {ev : Event} (good : ev.guard.foretoldGood)
    (touched : ev.touched = []) (hk : ev.guard.keysDiffer) (nodup : (cs.map Claim.key).Nodup)
    (named : ∀ c ∈ cs, c ∈ ev.guard.claims ∧ c.arm = x) (clear : (ev.guard.arm x).calculator.zone = .clear)
    (reads : ((cs.map Claim.key).foldl (fun ev k => ev.endHeld k .picked) ev).guard.reads = ev.guard.reads) :
    let ev' := (cs.map Claim.key).foldl (fun ev k => ev.endHeld k .picked) ev
    ev'.guard.arm x = (cs.map Claim.origin).foldl ArmState.picking (ev.guard.arm x) ∧
      ∀ c ∈ ev.guard.claims, c.key ∉ cs.map Claim.key → c ∈ ev'.guard.claims := by
  induction cs generalizing ev with
  | nil => exact ⟨rfl, fun _ hc _ => hc⟩
  | cons c cs ih =>
    obtain ⟨fresh, nodup⟩ := List.nodup_cons.1 nodup
    obtain ⟨hc, rfl⟩ := named c List.mem_cons_self
    have first : (ev.endHeld c.key .picked).guard.reads = ev.guard.reads :=
      Nat.le_antisymm (reads ▸ Event.foldl_reads_le (fun ev k => ev.endHeld_reads_le k .picked) (cs.map Claim.key) _)
        (ev.endHeld_reads_le c.key _)
    obtain ⟨arm, claims⟩ := Event.endHeld_clear good touched hk hc clear first
    have ended := (Event.endHeld_quiet good touched first).steady
    have change := ev.endHeld_change c.key .picked
    obtain ⟨-, calculator, -⟩ := change.armKeeps c.arm
    have others : ∀ d ∈ ev.guard.claims, d.key ≠ c.key → d ∈ (ev.endHeld c.key .picked).guard.claims := by
      intro d hd ne
      rw [claims]
      exact List.mem_filter.2 ⟨hd, decide_eq_true ne⟩
    obtain ⟨arms, stay⟩ := ih ended.good (ended.touched.trans touched) (change.keysDiffer hk) nodup
      (fun d hd => ⟨others d (named d (List.mem_cons_of_mem _ hd)).1 fun e => fresh (e ▸ List.mem_map_of_mem hd),
        (named d (List.mem_cons_of_mem _ hd)).2⟩)
      (calculator ▸ clear) (reads.trans first.symm)
    refine ⟨arms.trans (by rw [arm]; rfl), fun d hd other => ?_⟩
    obtain ⟨ne, other⟩ := not_or.1 (List.mem_cons.not.1 other)
    exact stay d (others d hd ne) other

/-- The completion of a CLEAR arm's claims, every other claim staying. -/
theorem Event.complete_picks {ev : Event} (good : ev.guard.foretoldGood) (touched : ev.touched = [])
    (hk : ev.guard.keysDiffer) {x : Arm} (clear : (ev.guard.arm x).calculator.zone = .clear)
    (reads : (ev.complete x).guard.reads = ev.guard.reads) :
    (ev.complete x).guard.arm x = ((ev.guard.completing x).map Claim.origin).foldl ArmState.picking (ev.guard.arm x) ∧
      ∀ c ∈ ev.guard.claims, ¬(c.phase = .held ∧ c.entered = true) → c ∈ (ev.complete x).guard.claims := by
  obtain ⟨arm, stay⟩ := Event.completeEach (x := x) (ev.guard.completing x) good touched hk
    (hk.sublist (List.Sublist.map _ List.filter_sublist))
    (fun c hc => ⟨(Guard.mem_completing.1 hc).1, (Guard.mem_completing.1 hc).2.1⟩) clear reads
  refine ⟨arm, fun c hc other => stay c hc fun named => other ?_⟩
  obtain ⟨d, hd, key⟩ := List.mem_map.1 named
  obtain ⟨claim, -, completes⟩ := Guard.mem_completing.1 hd
  exact hk.eq claim hc key ▸ completes

theorem Event.vacateProgress_claims {ev : Event} (good : ev.guard.foretoldGood) (touched : ev.touched = []) {x : Arm}
    (reads : (ev.vacateProgress x).guard.reads = ev.guard.reads) :
    (ev.vacateProgress x).guard.claims = ev.guard.claims := by
  obtain ⟨n, e⟩ := Event.vacateProgress_drawn good touched reads
  rw [e]
  unfold Event.letGo
  rw [Event.callEvaluation_guard, Event.onGuard_guard, Guard.reindex_claims, Event.onGuard_guard, Guard.onVacate,
    Guard.onArm_claims]
  rfl

/-- The whole handover of a CLEAR arm: the completed claims are picked one after the other, and the others stay. -/
theorem Event.complete_vacateProgress {ev : Event} (good : ev.guard.foretoldGood) (touched : ev.touched = [])
    (hk : ev.guard.keysDiffer) {x : Arm} (clear : (ev.guard.arm x).calculator.zone = .clear)
    (reads : ((ev.complete x).vacateProgress x).guard.reads = ev.guard.reads) :
    (((ev.guard.completing x).map Claim.origin).foldl ArmState.picking (ev.guard.arm x)).Unscored
      (((ev.complete x).vacateProgress x).guard.arm x) ∧
    ∀ c ∈ ev.guard.claims, ¬(c.phase = .held ∧ c.entered = true) →
      c ∈ ((ev.complete x).vacateProgress x).guard.claims := by
  have first : (ev.complete x).guard.reads = ev.guard.reads :=
    Nat.le_antisymm (Nat.le_trans (Event.vacateProgress_reads_le _ x) reads.le) (ev.complete_reads_le x)
  have rest := reads.trans first.symm
  have quiet : ev.Steady (ev.complete x) := (Event.completed_quiet good touched first).steady
  have untouched := quiet.touched.trans touched
  obtain ⟨arm, stay⟩ := Event.complete_picks good touched hk clear first
  rw [← arm, Event.vacateProgress_claims quiet.good untouched rest]
  exact ⟨Event.vacateProgress_unscored quiet.good untouched rest x, stay⟩

/-! ## The stages of a CLEAR sample -/

section
variable {ev : Event} {x : Arm} {s : Sample} (clear : ((ev.guard.arm x).calculator.sample ev.guard.cfg x s).zone = .clear)
include clear

theorem Event.accepted_vacate_clear : ((ev.acceptSample x s).finish.guard.arm x).vacate = [] := by
  obtain ⟨-, -, vacate, -⟩ := Event.finish_zoned _ x (ev.acceptSample_zoneInOrder x s)
  refine vacate ?_
  rw [ev.accepted_calculator]
  exact clear

variable (good : ev.GoodSample x s)
include good

/-- Up to the handover nothing is picked or skipped: claims are withdrawn at most, their entries missed (R82). -/
theorem Event.GoodSample.leveled_unscored : (ev.guard.arm x).Unscored ((ev.leveled x s).guard.arm x) := by
  have heard : (ev.guard.arm x).Unscored ((ev.heard x s).guard.arm x) := by
    rw [Event.heard_arm]
    exact ArmState.heard_unscored _ _ _ _ _
  have watched : (ev.watched x s).1.guard.arm x = (ev.heard x s).guard.arm x := by
    obtain ⟨n, e⟩ := good.watched
    rw [e]
    exact Guard.drawn_arm _ n x
  have monitored : ((ev.heard x s).guard.arm x).Unscored ((ev.monitored x s).guard.arm x) := by
    rw [Event.monitored_arm, watched]
    exact .of_eq rfl rfl rfl
  rw [ev.leveled_guard_clear clear]
  exact (heard.trans monitored).trans (Event.settleLevel_unscored _ x x)

variable (hk : ev.guard.keysDiffer)
include hk

/-- A held claim is in the table as it was when the handover begins. -/
theorem Event.GoodSample.leveled_holdsOn {c : Claim} (hc : c ∈ ev.guard.claims) (held : c.phase = .held) :
    ∃ d ∈ (ev.leveled x s).guard.claims, c.HoldsOn d := by
  rw [ev.leveled_guard_clear clear, Event.settleLevel_guard]
  exact Event.computeLevel_holdsOn (good.keysDiffer hk) x (good.claims ▸ hc) held

/-- The claims completed are those to complete before the sample. -/
theorem Event.GoodSample.completing : ((ev.leveled x s).guard.completing x).map Claim.mark =
    (ev.guard.completing x).map Claim.mark :=
  (ev.leveled_leaves clear).completing fun c hc => by
    obtain ⟨claim, -, held, -⟩ := Guard.mem_completing.1 hc
    obtain ⟨d, hd, holds⟩ := good.leveled_holdsOn clear hk claim held
    exact ⟨d, hd, holds.stays.keeps.key⟩

end

/-! ## What follows the handover -/

section
variable {ev : Event} {x : Arm} {s : Sample} (good : ev.GoodSample x s)
  (reads : (ev.acceptSample x s).finish.guard.reads = ev.guard.reads)
include good reads

/-- Nothing is drawn beyond the good findings by the evaluation either. -/
theorem Event.GoodSample.acceptedReads : (ev.acceptSample x s).guard.reads = (ev.handed x s).guard.reads := by
  have acceptedLe : (ev.handed x s).guard.reads ≤ (ev.acceptSample x s).guard.reads := Event.evaluateIfCalled_reads_le _
  have finishLe := (ev.acceptSample x s).finish_reads_le
  have evaluatedLe := (ev.acceptSample x s).evaluateIfCalled_reads_le
  have watched : (ev.watched x s).1.guard.reads = (ev.heard x s).guard.reads := by
    obtain ⟨n, e⟩ := good.watched
    rw [e]
    rfl
  have handed := good.handedReads
  have leveled := (ev.leveled_still x s).reads
  have monitored := (ev.monitored_still x s).reads
  have heard := (ev.heard_still x s).reads
  omega

variable (touched : ev.touched = []) (reached : ev.reached = [])
include touched reached

/-- What follows the handover picks and skips nothing. -/
theorem Event.GoodSample.finish_unscored :
    ((ev.handed x s).guard.arm x).Unscored ((ev.acceptSample x s).finish.guard.arm x) := by
  have handedTouched := good.handed.steady.touched.trans (good.leveled.touched.trans touched)
  exact (Event.evaluateIfCalled_unscored good.handed.steady.good handedTouched (good.acceptedReads reads) x).trans
    (Event.finish_unscored (Event.evaluateIfCalled_evaluate _) (good.reached reached) x)

end

/-! ## A CLEAR sample after an INSIDE one -/

section
variable {ev : Event} {x : Arm} {s : Sample} (inside : (ev.guard.arm x).calculator.zone = .inside)
  (clear : ((ev.guard.arm x).calculator.sample ev.guard.cfg x s).zone = .clear)
include inside clear

theorem Event.handed_clear : ev.handed x s = ((ev.leveled x s).complete x).vacateProgress x := by
  unfold Event.handed Event.handOver
  simp [ev.leveled_calculator, inside, clear]

/-- Every entered held claim of the arm leaves the table, whatever the reads find. -/
theorem Event.accepted_gone {c : Claim} (hc : c ∈ ev.guard.completing x) :
    ∀ d ∈ (ev.acceptSample x s).finish.guard.claims, d.key ≠ c.key := by
  have handed : ∀ d ∈ (ev.handed x s).guard.claims, d.key ≠ c.key := by
    obtain ⟨claim, arm, held, entered⟩ := Guard.mem_completing.1 hc
    rw [Event.handed_clear inside clear]
    refine (Event.vacateProgress_change _ x).gone ?_
    rcases (ev.leveled_leaves clear).stays_or_gone claim with ⟨d, hd, mark⟩ | gone
    · have key : d.key = c.key := congrArg ClaimMark.key mark
      have phase : d.isHeld = c.isHeld := congrArg ClaimMark.held mark
      have flag : d.entered = c.entered := congrArg ClaimMark.entered mark
      have completes : d ∈ (ev.leveled x s).guard.completing x :=
        Guard.mem_completing.2 ⟨hd, (congrArg ClaimKey.arm key).trans arm,
          Claim.isHeld_iff.1 (phase.trans (Claim.isHeld_iff.2 held)), flag.trans entered⟩
      exact key ▸ Event.complete_gone _ completes
    · exact (Event.complete_change _ x).gone gone
  exact ((Event.evaluateIfCalled_change _).trans (Event.finish_change _)).gone handed

variable (good : ev.GoodSample x s) (touched : ev.touched = []) (hk : ev.guard.keysDiffer)
include good touched hk

/-- The handover with good reads: the completed claims are picked one after the other, and the others stay. -/
theorem Event.GoodSample.completed :
    (((ev.guard.completing x).map Claim.origin).foldl ArmState.picking ((ev.leveled x s).guard.arm x)).Unscored
      ((ev.handed x s).guard.arm x) ∧
    ∀ c ∈ (ev.leveled x s).guard.claims, ¬(c.phase = .held ∧ c.entered = true) → c ∈ (ev.handed x s).guard.claims := by
  have origins : ((ev.leveled x s).guard.completing x).map Claim.origin = (ev.guard.completing x).map Claim.origin := by
    have marks := congrArg (List.map ClaimMark.origin) (good.completing clear hk)
    rw [List.map_map, List.map_map] at marks
    exact marks
  have differ : (ev.leveled x s).guard.keysDiffer := (ev.leveled_change x s).keysDiffer (good.keysDiffer hk)
  have zone : ((ev.leveled x s).guard.arm x).calculator.zone = .clear := by
    rw [ev.leveled_calculator]
    exact clear
  have reads := good.handedReads
  rw [Event.handed_clear inside clear] at reads ⊢
  rw [← origins]
  exact Event.complete_vacateProgress good.leveled.good (good.leveled.touched.trans touched) differ zone reads

variable (reached : ev.reached = [])
include reached

/-- A held claim that is not entered stays. -/
theorem Event.GoodSample.unentered_stays {c : Claim} (hc : c ∈ ev.guard.claims) (held : c.phase = .held)
    (entered : c.entered = false) : ∃ d ∈ (ev.acceptSample x s).finish.guard.claims, c.keeps d := by
  obtain ⟨b, hb, leveled⟩ := good.leveled_holdsOn clear hk hc held
  have heldOn := leveled.stays.keeps.held held
  obtain ⟨-, stay⟩ := good.completed inside clear touched hk
  have handed := stay b hb fun ⟨_, e⟩ => by
    rw [leveled.entered, entered] at e
    cases e
  have differ := ((ev.leveled_change x s).trans (ev.handed_change x s)).keysDiffer (good.keysDiffer hk)
  obtain ⟨d, hd, accepted⟩ := good.held differ b handed heldOn
  exact ⟨d, (good.finish reached).1.symm ▸ hd, Claim.keeps_trans leveled.stays.keeps accepted.stays.keeps⟩

variable (reads : (ev.acceptSample x s).finish.guard.reads = ev.guard.reads)
include reads

/-- A plan's picked tally rises by its completed claims, and its skipped tally stays. -/
theorem Event.GoodSample.tallies {i : SlotIx} {q r : Plan} (hq : ((ev.guard.arm x).slot i).plan? = some q)
    (hr : (((ev.acceptSample x s).finish.guard.arm x).slot i).plan? = some r) (le : q.picked ≤ 65535) :
    r.picked = min 65535 (q.picked + ((ev.guard.completing x).filter fun c => c.fromSlot x i).length) ∧
      r.skipped = q.skipped := by
  obtain ⟨completed, -⟩ := good.completed inside clear touched hk
  obtain ⟨r', hr', picked, skipped⟩ := (completed.trans (good.finish_unscored reads touched reached)).slot i r hr
  obtain ⟨q', hq', skipped', picked'⟩ := ArmState.picked_slot hr'
  obtain ⟨p, hp, samePicked, sameSkipped⟩ := (good.leveled_unscored clear).slot i q' hq'
  obtain rfl : p = q := Option.some.inj (hp.symm.trans hq)
  have count : ((ev.guard.completing x).map Claim.origin).countP (Origin.inSlot i) =
      ((ev.guard.completing x).filter fun c => c.fromSlot x i).length := by
    rw [List.countP_map, List.countP_eq_length_filter]
    refine congrArg List.length (List.filter_congr fun c hc => ?_)
    exact (Claim.fromSlot_eq (Guard.mem_completing.1 hc).2.1 i).symm
  rw [← count, ← samePicked]
  exact ⟨picked.trans (picked' (samePicked ▸ le)), skipped.trans (skipped'.trans sameSkipped)⟩

/-- A counter of PICKS rises by the PLAN claims completed. -/
theorem Event.GoodSample.picks {n : Nat} (h : ((ev.guard.arm x).counters.selectable.get n).selection = .picks)
    (le : ((ev.guard.arm x).counters.selectable.get n).value ≤ 4294967295) :
    (((ev.acceptSample x s).finish.guard.arm x).counters.selectable.get n).value =
      min 4294967295 (((ev.guard.arm x).counters.selectable.get n).value +
        ((ev.guard.completing x).filter Claim.isPlan).length) := by
  obtain ⟨completed, -⟩ := good.completed inside clear touched hk
  have before := good.leveled_unscored clear
  have selection := (before.selection n).trans h
  have value := before.picks n h
  have after := (completed.trans (good.finish_unscored reads touched reached)).picks n
    ((ArmState.picked_selection _ _ n).trans selection)
  have count : ((ev.guard.completing x).map Claim.origin).countP Origin.inPlan =
      ((ev.guard.completing x).filter Claim.isPlan).length := by
    rw [List.countP_map, List.countP_eq_length_filter]
    rfl
  rw [after, ArmState.picked_picks selection (value ▸ le), count, value]

end

/-- Settles O29: the claims that leave by their marks, the picks by the completion of each. -/
theorem clearSampleCompletesClaims : Obligations.ClearSampleCompletesClaims := by
  unfold Obligations.ClearSampleCompletesClaims
  intro s x tag p serves length inside clear done
  obtain ⟨t, step, guard, -⟩ := State.sample_echoed serves tag length
  rw [← s.guard.event_guard] at inside clear
  refine ⟨t, step, ?_⟩
  rw [guard]
  refine ⟨fun c hc => Event.accepted_gone inside clear hc, Event.accepted_vacate_clear clear, fun goodReads hk => ?_⟩
  obtain ⟨findings, reads⟩ := goodReads
  rw [guard] at reads
  have good : s.guard.event.GoodSample x (parseSample p) := Event.goodSample findings rfl reads
  refine ⟨fun c hc _ held entered => good.unentered_stays inside clear rfl hk rfl hc held entered,
    fun i q r hq hr le => good.tallies inside clear rfl hk rfl reads hq hr le,
    fun n _ h le => good.picks inside clear rfl hk rfl reads h le⟩

end Sys2Proof.Machine

/-! # The claim table and the priorities (O53, O59)

`Guard.Carries` says of two guards that every claim of the second was in the first under its name, origin and priorities, that
every plan entry of the second stood in a plan of the first, and that the second is in INIT or SETUP only with a table that
fits. The shared operations carry the table so, and so do all events but four: CLAIM_FOR and REQUEST make a claim, LOAD_PLAN
stores entries, and an aging expiry raises a priority. -/

namespace Sys2Proof.Machine

/-! ## The relation -/

/-- The claim table within its bounds (R63, R65, R153). -/
def Guard.tableFits (g : Guard) : Prop := g.claimsFit ∧ g.keysDiffer ∧ g.claimsFitMode

/-- What a claim keeps of its record from its making on, its aging apart. -/
def Claim.SameMaking (c d : Claim) : Prop := d.origin = c.origin ∧ d.priority = c.priority ∧ d.base = c.base

theorem Claim.SameMaking.refl (c : Claim) : c.SameMaking c := ⟨rfl, rfl, rfl⟩

theorem Claim.SameMaking.trans {b c d : Claim} (h : b.SameMaking c) (k : c.SameMaking d) : b.SameMaking d :=
  ⟨k.1.trans h.1, k.2.1.trans h.2.1, k.2.2.trans h.2.2⟩

theorem Claim.SameMaking.isPlan {c d : Claim} (h : c.SameMaking d) : d.isPlan = c.isPlan := by
  unfold Claim.isPlan
  rw [h.1]

theorem Claim.keeps.sameMaking {c d : Claim} (h : c.keeps d) : c.SameMaking d := ⟨h.2.1, h.2.2.2.1, h.2.2.2.2.1⟩

/-- The entries of every plan of the second arm are those of some plan of the first. -/
def ArmState.EntriesOf (a b : ArmState) : Prop :=
  ∀ i p, (b.slot i).plan? = some p → ∃ j q, (a.slot j).plan? = some q ∧ p.entries = q.entries

theorem ArmState.EntriesOf.of_slots {a b : ArmState} (h : ∀ i, b.slot i = a.slot i) : a.EntriesOf b :=
  fun i p e => ⟨i, p, h i ▸ e, rfl⟩

theorem ArmState.EntriesOf.trans {a b c : ArmState} (h : a.EntriesOf b) (k : b.EntriesOf c) : a.EntriesOf c := by
  intro i p e
  obtain ⟨j, q, hq, pq⟩ := k i p e
  obtain ⟨l, r, hr, qr⟩ := h j q hq
  exact ⟨l, r, hr, pq.trans qr⟩

/-- One slot set to a plan with the entries of one the arm had, or emptied. -/
theorem ArmState.EntriesOf.setSlot (a : ArmState) (i : SlotIx) {s : Slot}
    (h : ∀ p, s.plan? = some p → ∃ j q, (a.slot j).plan? = some q ∧ p.entries = q.entries) :
    a.EntriesOf (a.setSlot i s) := by
  intro l p e
  rw [ArmState.slot_setSlot_eq] at e
  split at e
  · exact h p e
  · exact ⟨l, p, e, rfl⟩

theorem Slot.follows.entries {s t : Slot} (h : s.follows t) {p : Plan} (e : t.plan? = some p) :
    ∃ q, s.plan? = some q ∧ p.entries = q.entries := by
  cases s <;> cases t <;> simp only [Slot.plan?, Option.some.injEq, reduceCtorEq] at e
  all_goals first
    | exact h.elim
    | exact ⟨_, rfl, e ▸ h.2.2.1⟩

theorem ArmState.keeps.entriesOf {a b : ArmState} (h : a.keeps b) : a.EntriesOf b := by
  obtain ⟨-, -, -, -, -, -, slot0, slot1⟩ := h
  intro i p e
  cases i with
  | slot0 => exact (slot0.entries e).elim fun q hq => ⟨.slot0, q, hq⟩
  | slot1 => exact (slot1.entries e).elim fun q hq => ⟨.slot1, q, hq⟩

structure Guard.Carries (g h : Guard) : Prop where
  keys : h.keys.Sublist g.keys
  claims : ∀ d ∈ h.claims, ∃ c ∈ g.claims, c.SameMaking d
  init : h.mode = .init → g.mode = .init
  setup : h.mode = .setup → g.mode = .setup ∨ ∀ d ∈ h.claims, d.isPlan = false
  entries : ∀ x, (g.arm x).EntriesOf (h.arm x)

theorem Guard.Carries.trans {g h k : Guard} (a : g.Carries h) (b : h.Carries k) : g.Carries k where
  keys := b.keys.trans a.keys
  claims d hd := by
    obtain ⟨c, hc, cd⟩ := b.claims d hd
    obtain ⟨e, he, ec⟩ := a.claims c hc
    exact ⟨e, he, ec.trans cd⟩
  init m := a.init (b.init m)
  setup m := by
    rcases b.setup m with m | none
    · rcases a.setup m with m | none
      · exact .inl m
      · refine .inr fun d hd => ?_
        obtain ⟨c, hc, cd⟩ := b.claims d hd
        exact cd.isPlan.trans (none c hc)
    · exact .inr none
  entries x := (a.entries x).trans (b.entries x)

/-- A change of neither the mode, nor the claims, nor the plan slots. -/
theorem Guard.Carries.of_same {g h : Guard} (mode : h.mode = g.mode) (claims : h.claims = g.claims)
    (slots : ∀ x i, (h.arm x).slot i = (g.arm x).slot i) : g.Carries h where
  keys := by rw [Guard.keys, Guard.keys, claims]
  claims d hd := ⟨d, claims ▸ hd, .refl d⟩
  init m := mode ▸ m
  setup m := .inl (mode ▸ m)
  entries x := .of_slots (slots x)

theorem Guard.Carries.refl (g : Guard) : g.Carries g := .of_same rfl rfl fun _ _ => rfl

/-- A change of the mode to one that no claim contradicts. -/
theorem Guard.Carries.withMode (g : Guard) {m : Mode} (init : m ≠ .init)
    (setup : m = .setup → ∀ c ∈ g.claims, c.isPlan = false) : g.Carries { g with mode := m } where
  keys := List.Sublist.refl _
  claims d hd := ⟨d, hd, .refl d⟩
  init e := absurd e init
  setup e := .inr (setup e)
  entries x := .of_slots fun i => by cases x <;> rfl

/-- A table emptied outside INIT. -/
theorem Guard.Carries.cleared {g h : Guard} (claims : h.claims = []) (mode : h.mode ≠ .init)
    (entries : ∀ x, (g.arm x).EntriesOf (h.arm x)) : g.Carries h where
  keys := by simp [Guard.keys, claims]
  claims d hd := by simp [claims] at hd
  init e := absurd e mode
  setup _ := .inr fun d hd => by simp [claims] at hd
  entries := entries

theorem Guard.Carries.onArm (g : Guard) (x : Arm) {f : ArmState → ArmState} (h : (g.arm x).EntriesOf (f (g.arm x))) :
    g.Carries (g.onArm x f) where
  keys := by simp [Guard.keys]
  claims d hd := ⟨d, by simpa using hd, .refl d⟩
  init m := by simpa using m
  setup m := .inl (by simpa using m)
  entries y := by
    rw [Guard.arm_onArm_eq]
    split
    · rename_i e
      exact e ▸ h
    · exact .of_slots fun _ => rfl

/-- A change of one arm that leaves its slots. -/
theorem Guard.Carries.beside (g : Guard) (x : Arm) {f : ArmState → ArmState} (slots : ∀ a i, (f a).slot i = a.slot i) :
    g.Carries (g.onArm x f) := .onArm g x (.of_slots (slots _))

theorem Guard.hasPlanClaim_eq_false {g : Guard} : g.hasPlanClaim = false ↔ ∀ c ∈ g.claims, c.isPlan = false := by
  unfold Guard.hasPlanClaim
  simp

/-- The end of DRAINING is the shared operations' one change of the mode. -/
theorem Guard.Change.setup {g h : Guard} (c : Guard.Change g h) (m : h.mode = .setup) :
    g.mode = .setup ∨ ∀ d ∈ h.claims, d.isPlan = false := by
  induction c with
  | trans _ b i j =>
    rcases j m with m | none
    · rcases i m with m | none
      · exact .inl m
      · refine .inr fun d hd => ?_
        obtain ⟨c, hc, cd⟩ := b.claim d hd
        exact cd.sameMaking.isPlan.trans (none c hc)
    · exact .inr none
  | drained g _ none => exact .inr (Guard.hasPlanClaim_eq_false.1 none)
  | arm g x f _ => exact .inl (by simpa using m)
  | _ => exact .inl m

theorem Guard.Change.carries {g h : Guard} (c : Guard.Change g h) : g.Carries h where
  keys := c.keys
  claims d hd := (c.claim d hd).imp fun _ ⟨he, k⟩ => ⟨he, k.sameMaking⟩
  init m := by
    rcases c.mode with e | ⟨-, e⟩
    · exact e ▸ m
    · rw [e] at m
      cases m
  setup := c.setup
  entries x := (c.armKeeps x).entriesOf

theorem Guard.Carries.tableFits {g h : Guard} (k : g.Carries h) : g.tableFits → h.tableFits := by
  rintro ⟨fit, differ, init, setup⟩
  refine ⟨fun x => (Guard.claimCount_le k.keys x).trans (fit x), differ.sublist k.keys, fun m => ?_, fun m d hd => ?_⟩
  · refine List.eq_nil_iff_forall_not_mem.2 fun d hd => ?_
    obtain ⟨c, hc, -⟩ := k.claims d hd
    rw [init (k.init m)] at hc
    cases hc
  · rcases k.setup m with m | none
    · obtain ⟨c, hc, cd⟩ := k.claims d hd
      exact cd.isPlan.trans (setup m c hc)
    · exact none d hd

theorem Guard.Carries.prioritiesFit {g h : Guard} (k : g.Carries h) : g.prioritiesFit → h.prioritiesFit := by
  rintro ⟨claims, entries⟩
  refine ⟨fun d hd => ?_, fun x i p hp e he => ?_⟩
  · obtain ⟨c, hc, -, priority, base⟩ := k.claims d hd
    rw [priority, base]
    exact claims c hc
  · obtain ⟨j, q, hq, same⟩ := k.entries x i p hp
    exact entries x j q hq e (same ▸ he)

/-! ## CONFIGURE, START, STOP and RESTART -/

theorem Event.finish_carries (ev : Event) : ev.guard.Carries ev.finish.guard := ev.finish_change.carries

theorem Guard.applyConfig_carries (g : Guard) (c : ConfigSet) : g.Carries (g.applyConfig c).guard := by
  unfold Guard.applyConfig
  dsimp only
  refine .trans ?_ (.trans (Event.actionsChanged_change _ g.cfg .A).carries (Event.actionsChanged_change _ g.cfg .B).carries)
  rw [Guard.event_guard]
  split
  · exact .of_same rfl rfl fun x i => by cases x <;> rfl
  · rw [Guard.changeGeometry_eq]
    refine .trans (h := g.placed c) (.of_same rfl rfl fun x i => ?_)
      (Guard.Change.trans (.reindex _ storeCells) (.restartScrub _)).carries
    rw [Guard.placed_arm]
    cases i <;> rfl

theorem Guard.serveConfigure_carries (g : Guard) (p : List Byte) : g.Carries (g.serveConfigure p).1.guard := by
  unfold Guard.serveConfigure
  split
  · exact .refl g
  · dsimp only
    split
    · exact .refl g
    · split
      · exact .refl g
      · split
        · exact .refl g
        · exact g.applyConfig_carries _

theorem Guard.enterGuard_carries (g : Guard) : g.Carries g.enterGuard.1.guard := .withMode g (by decide) Mode.noConfusion

theorem Guard.serveStart_carries (g : Guard) : g.Carries g.serveStart.1.guard := by
  unfold Guard.serveStart
  split
  · exact .refl g
  · exact g.enterGuard_carries
  · split
    · exact .refl g
    · exact g.enterGuard_carries

/-- STOP enters SETUP only where the withdrawals left no PLAN claim. -/
theorem Guard.serveStop_carries (g : Guard) : g.Carries g.serveStop.1.guard := by
  unfold Guard.serveStop
  split
  · exact .refl g
  · refine .trans (g.event.withdrawAll_change Claim.isPlan).carries ?_
    dsimp only
    rw [Event.callEvaluation_guard, Event.post_guard, Event.onGuard_guard]
    split
    · exact .withMode _ (by decide) Mode.noConfusion
    · rename_i plans
      exact .withMode _ (by decide) fun _ => Guard.hasPlanClaim_eq_false.1 (Bool.eq_false_iff.2 plans)

theorem ArmState.EntriesOf.empty (a : ArmState) {b : ArmState} (slot0 : b.slot0 = .empty) (slot1 : b.slot1 = .empty) :
    a.EntriesOf b := by
  intro i p e
  cases i with
  | slot0 => simp [ArmState.slot, slot0, Slot.plan?] at e
  | slot1 => simp [ArmState.slot, slot1, Slot.plan?] at e

theorem Guard.restarted_carries (g : Guard) : g.Carries g.restarted :=
  .cleared g.restarted_claims Mode.noConfusion fun x => by cases x <;> exact .empty _ rfl rfl

theorem Guard.serveRestart_carries (g : Guard) : g.Carries g.serveRestart.1.guard := by
  obtain ⟨ev, hev, e⟩ := g.serveRestart_guard
  rw [e, Event.post_guard]
  refine .trans ?_ (ev.rewriteAll_change _ _).carries
  rw [hev]
  exact g.restarted_carries

/-! ## The other requests that make no claim and store no entry -/

theorem Event.fencesChanged_carries (ev : Event) (cells : CellSet) : ev.guard.Carries (ev.fencesChanged cells).guard :=
  (ev.touching cells).settle_change.carries

theorem Event.addFences_carries (ev : Event) (cells : CellSet) : ev.guard.Carries (ev.addFences cells).guard := by
  refine .trans (.trans (h := { ev.guard with fences := unionCells ev.guard.fences cells }) ?_
    (ev.guard.fenceCells_change cells).carries) (Event.fencesChanged_carries (ev.fenced cells) cells)
  exact .of_same rfl rfl fun x i => by cases x <;> rfl

theorem Event.dropFences_carries (ev : Event) (cells : CellSet) : ev.guard.Carries (ev.dropFences cells).guard := by
  refine .trans (.trans (h := { ev.guard with fences := minusCells ev.guard.fences cells }) ?_
    (ev.guard.unfenceCells_change cells).carries) (Event.fencesChanged_carries (ev.unfenced cells) cells)
  exact .of_same rfl rfl fun x i => by cases x <;> rfl

theorem Guard.serveFence_carries (g : Guard) (p : List Byte) : g.Carries (g.serveFence p).1.guard := by
  unfold Guard.serveFence
  split
  · exact .refl g
  · exact .trans (g.event.readCells_change _ _).carries (Event.addFences_carries _ _)

theorem Guard.serveUnfence_carries (g : Guard) (p : List Byte) : g.Carries (g.serveUnfence p).1.guard := by
  unfold Guard.serveUnfence
  split
  · exact .refl g
  · exact .trans (g.event.readCells_change _ _).carries (Event.dropFences_carries _ _)

/-- A LOADED slot that becomes ACTIVE keeps its plan. -/
theorem ArmState.activate_entriesOf (a : ArmState) (i : SlotIx) : a.EntriesOf (a.activate i) := by
  unfold ArmState.activate
  split
  · rename_i p loaded
    refine .setSlot a i fun q e => ⟨i, p, by rw [loaded]; rfl, ?_⟩
    cases e
    rfl
  · exact .of_slots fun _ => rfl

theorem ArmState.finishSlot_entriesOf (a : ArmState) (i : SlotIx) {p : Plan} (why : EndReason)
    (h : ∃ j q, (a.slot j).plan? = some q ∧ p.entries = q.entries) : a.EntriesOf (a.finishSlot i p why) := by
  refine .trans (.setSlot a i fun r e => ?_) (ArmState.activate_entriesOf _ i.other)
  cases e
  exact h

theorem Guard.dropActive_carries (g : Guard) (x : Arm) : g.Carries (g.dropActive x).1.guard := by
  unfold Guard.dropActive
  split
  · exact .refl g
  · rename_i i p _
    dsimp only
    rw [Event.callEvaluation_guard]
    refine .trans (g.event.withdrawAll_change fun c => c.fromSlot x i).carries
      (.trans ?_ (Event.endPlans_change _).carries)
    rw [Event.onGuard_guard]
    refine .onArm _ x ?_
    split
    · rename_i q plan
      exact ArmState.finishSlot_entriesOf _ i .dropped ⟨i, q, plan, rfl⟩
    · exact .of_slots fun _ => rfl

theorem Guard.dropLoaded_carries (g : Guard) (x : Arm) : g.Carries (g.dropLoaded x).1.guard := by
  unfold Guard.dropLoaded
  split
  · exact .refl g
  · rw [Guard.event_guard]
    refine .onArm g x ?_
    exact .setSlot _ _ fun p e => by cases e

theorem Guard.serveDropPlan_carries (g : Guard) (p : List Byte) : g.Carries (g.serveDropPlan p).1.guard := by
  unfold Guard.serveDropPlan
  split
  · exact g.dropActive_carries _
  · exact g.dropLoaded_carries _
  · exact .refl g

theorem Guard.serveRevoke_carries (g : Guard) (p : List Byte) : g.Carries (g.serveRevoke p).1.guard := by
  unfold Guard.serveRevoke
  split
  · exact .refl g
  · rename_i x _
    refine .trans (g.event.endClaims_change (g.keysWhere fun c => c.arm = x)).carries ?_
    dsimp only
    rw [Event.callEvaluation_guard]
    split
    · exact (Guard.Change.trans (Event.raiseRevoked_change _ x) (Event.settleLevel_change _ x)).carries
    · exact .refl _

theorem Event.lower_carries (ev : Event) (x : Arm) (src : Source) : ev.guard.Carries (ev.lower x src).guard := by
  rw [Event.lower_guard]
  exact .beside _ x fun _ i => by cases i <;> rfl

theorem Event.lowerAll_carries (srcs : List Source) (ev : Event) (x : Arm) :
    ev.guard.Carries (srcs.foldl (fun ev src => ev.lower x src) ev).guard := by
  induction srcs generalizing ev with
  | nil => exact .refl _
  | cons src srcs ih => exact .trans (ev.lower_carries x src) (ih _)

theorem Guard.serveClearFaults_carries (g : Guard) (p : List Byte) : g.Carries (g.serveClearFaults p).1.guard := by
  unfold Guard.serveClearFaults
  split
  · exact .refl g
  · exact .trans (Event.lowerAll_carries _ g.event _) (Event.settleLevel_change _ _).carries

theorem Guard.serveGetRow_carries (g : Guard) (p : List Byte) : g.Carries (g.serveGetRow p).1.guard := by
  unfold Guard.serveGetRow
  dsimp only
  split
  · exact .refl g
  · exact (g.event.readCells_change _ _).carries

theorem Guard.serveSetCounters_carries (g : Guard) (p : List Byte) : g.Carries (g.serveSetCounters p).1.guard := by
  unfold Guard.serveSetCounters
  split
  · exact .refl g
  · split
    · exact .refl g
    · dsimp only
      rw [Guard.event_guard]
      exact .beside g _ fun _ i => by cases i <;> rfl

theorem Event.acceptSample_carries (ev : Event) (x : Arm) (s : Sample) : ev.guard.Carries (ev.acceptSample x s).guard := by
  have heard : ev.guard.Carries (ev.heard x s).guard := by
    rw [Event.heard_guard]
    exact .beside _ x fun _ i => by cases i <;> rfl
  have monitored : (ev.watched x s).1.guard.Carries (ev.monitored x s).guard := by
    rw [Event.monitored_guard]
    exact .beside _ x fun _ i => by cases i <;> rfl
  exact ((heard.trans (ev.watched_change x s).carries).trans monitored).trans (ev.acceptSample_change x s).carries

theorem Guard.serveSample_carries (g : Guard) (x : Arm) (p : List Byte) : g.Carries (g.serveSample x p).1.guard := by
  unfold Guard.serveSample
  split
  · exact .refl g
  · exact g.event.acceptSample_carries x _

/-- One issue of a plan that the arm has. -/
theorem Event.issue_carries (ev : Event) (x : Arm) (i : SlotIx) {p : Plan}
    (h : ∃ j q, ((ev.guard.arm x).slot j).plan? = some q ∧ p.entries = q.entries) :
    ev.guard.Carries (ev.issue x i p).guard := by
  unfold Event.issue
  dsimp only
  split
  · rw [Event.onGuard_guard]
    refine .onArm ev.guard x ?_
    exact ArmState.finishSlot_entriesOf _ i .complete h
  · rw [Event.onGuard_guard]
    refine .onArm ev.guard x ?_
    exact .setSlot _ i fun q e => by cases e; exact h

theorem ArmState.activePlan_some {a : ArmState} {i : SlotIx} {p : Plan} (h : a.activePlan = some (i, p)) :
    a.slot i = .active p := by
  unfold ArmState.activePlan at h
  split at h
  · rename_i e
    cases h
    exact e
  · rename_i e _
    cases h
    exact e
  · cases h

theorem Guard.serveSkip_carries (g : Guard) (x : Arm) : g.Carries (g.serveSkip x).1.guard := by
  unfold Guard.serveSkip
  split
  · exact .refl g
  · split
    · exact .refl g
    · rename_i i p active
      refine .trans (g.event.issue_carries x i ⟨i, p, ?_, rfl⟩) (Event.tally_change _ x i .skipped).carries
      rw [Guard.event_guard, ArmState.activePlan_some active]
      rfl

theorem Guard.serveRelease_carries (g : Guard) (x : Arm) (p : List Byte) : g.Carries (g.serveRelease x p).1.guard := by
  unfold Guard.serveRelease
  dsimp only
  split
  · exact .refl g
  · split
    · exact .refl g
    · exact (g.event.endHeld_change _ _).carries

/-! ## Timers, scrub and power -/

theorem Event.escalate_guard (ev : Event) (x : Arm) (e : Escalation) : (ev.escalate x e).guard =
    ev.guard.onUnit x fun u => { u with sources := { u.sources with escalated := some e } } := rfl

theorem Guard.gapExpiry_carries (g : Guard) (x : Arm) : g.Carries (g.gapExpiry x).guard := by
  rw [Guard.gapExpiry_eq]
  refine .trans ?_ (Event.settleLevel_change _ x).carries
  rw [Guard.gapLatched_guard]
  exact .trans (.beside g x fun _ i => by cases i <;> rfl) (.beside _ x fun _ i => by cases i <;> rfl)

theorem Guard.slowExpiry_carries (g : Guard) (x : Arm) : g.Carries (g.slowExpiry x).guard := by
  have stopped : g.Carries (g.onUnit x fun u => { u with slowTimer := none }) := .beside g x fun _ i => by cases i <;> rfl
  unfold Guard.slowExpiry
  dsimp only
  split
  · refine .trans ?_ (Event.settleLevel_change _ x).carries
    refine stopped.trans ?_
    rw [Event.escalate_guard, Event.onGuard_guard, Guard.quietEvent_guard]
    exact .beside _ x fun _ i => by cases i <;> rfl
  · exact stopped

theorem Guard.holdExpiry_carries (g : Guard) (x : Arm) : g.Carries (g.holdExpiry x).guard := by
  have stopped : g.Carries (g.onUnit x fun u => { u with holdTimer := none }) := .beside g x fun _ i => by cases i <;> rfl
  unfold Guard.holdExpiry
  dsimp only
  split
  · refine .trans ?_ (Event.settleLevel_change _ x).carries
    refine stopped.trans ?_
    rw [Event.escalate_guard, Event.onGuard_guard, Guard.quietEvent_guard]
    exact .beside _ x fun _ i => by cases i <;> rfl
  · exact stopped

theorem Guard.visit_carries (g : Guard) : g.Carries g.visit.guard := by
  refine .trans (g.quietEvent.readCell_change .scrub (g.scrubCell g.scrub.pos)).carries ?_
  refine .of_same (h := Guard.advanceScrub _) ?_ ?_ fun x _ => ?_
  · unfold Guard.advanceScrub
    dsimp only
    split <;> rfl
  · unfold Guard.advanceScrub
    dsimp only
    split <;> rfl
  · rw [Guard.advanceScrub_arm]

theorem Guard.waitStep_carries (g : Guard) (x : Arm) : g.Carries (g.waitStep x) := by
  unfold Guard.waitStep
  split
  · exact .refl g
  · exact .trans (.trans (.beside g x fun _ i => by cases i <;> rfl) (.beside _ x fun _ i => by cases i <;> rfl)) (.beside _ x fun _ i => by cases i <;> rfl)

theorem Guard.restraintStep_carries (g : Guard) (x : Arm) : g.Carries (g.restraintStep x) := by
  unfold Guard.restraintStep
  split
  · exact .refl g
  · exact .beside g x fun _ i => by cases i <;> rfl

theorem Guard.tick_carries (g : Guard) : g.Carries g.tick := by
  unfold Guard.tick
  dsimp only
  split
  · exact .of_same rfl rfl fun x i => by cases x <;> rfl
  · have a := (g.restraintStep_carries .A).trans (Guard.waitStep_carries _ .A)
    have b := (a.trans (Guard.restraintStep_carries _ .B)).trans (Guard.waitStep_carries _ .B)
    exact b.trans (.of_same rfl rfl fun x i => by cases x <;> rfl)

theorem Guard.cutLines_carries (g : Guard) : g.Carries g.cutLines :=
  .trans (h := { g with linesCut := true }) (.of_same rfl rfl fun x i => by cases x <;> rfl)
    (Guard.Change.trans (.followLines _ .A) (.followLines _ .B)).carries

/-- INIT ends in SETUP, with the empty table that INIT has. -/
theorem Guard.leaveInit_carries {g : Guard} (none : g.claims = []) : g.Carries g.leaveInit := by
  unfold Guard.leaveInit Guard.levelsFromSources
  dsimp only
  refine .trans (.cleared (h := { g with
    mode := .setup, linesCut := !g.permitSupply, leakTimer := g.timerFor (msSteps g.cfg.tLeak) }) none ?_ fun x => ?_)
    (Guard.Change.trans (.trans (.changeLevel _ .A _) (.changeLevel _ .B _)) (.restartScrub _)).carries
  · exact Mode.noConfusion
  · exact .of_slots fun i => by cases x <;> rfl

theorem Guard.endInit_carries {g : Guard} (none : g.claims = []) : g.Carries g.endInit.guard := by
  have verified := g.quietEvent.rewriteAll_change .init storeCells
  refine verified.carries.trans (Guard.leaveInit_carries (List.eq_nil_iff_forall_not_mem.2 fun d hd => ?_))
  obtain ⟨c, hc, -⟩ := verified.claim d hd
  rw [Guard.quietEvent_guard, none] at hc
  cases hc

/-! ## A claim made, an entry stored, a priority raised -/

/-- Both of the orders at once: a table within its bounds, and priorities in their range. -/
structure Guard.Orderly (g h : Guard) : Prop where
  table : g.tableFits → h.tableFits
  priorities : g.prioritiesFit → h.prioritiesFit

theorem Guard.Carries.orderly {g h : Guard} (k : g.Carries h) : g.Orderly h := ⟨k.tableFits, k.prioritiesFit⟩

theorem Guard.Orderly.refl (g : Guard) : g.Orderly g := ⟨id, id⟩

theorem Guard.Orderly.trans {g h k : Guard} (a : g.Orderly h) (b : h.Orderly k) : g.Orderly k :=
  ⟨b.table ∘ a.table, b.priorities ∘ a.priorities⟩

theorem Guard.addClaim_keys (g : Guard) (c : Claim) : (g.addClaim c).keys = g.keys ++ [c.key] := by
  unfold Guard.addClaim Guard.keys
  dsimp only
  rw [List.map_append]
  rfl

theorem Guard.addClaim_claims (g : Guard) (c : Claim) : (g.addClaim c).claims = g.claims ++ [c] := rfl

theorem Guard.addClaim_mode (g : Guard) (c : Claim) : (g.addClaim c).mode = g.mode := by
  unfold Guard.addClaim
  exact Guard.onArm_mode _ _ _

theorem Guard.addClaim_slot (g : Guard) (c : Claim) (x : Arm) (i : SlotIx) :
    ((g.addClaim c).arm x).slot i = (g.arm x).slot i := by
  unfold Guard.addClaim
  cases x <;> cases h : c.arm <;> cases i <;> rfl

/-- A new claim of an arm with room, outside INIT, of a supervisor in SETUP. -/
theorem Guard.addClaim_tableFits {g : Guard} {x : Arm} (room : g.claimCount x < 2) {o : Origin} (mode : g.mode ≠ .init)
    (origin : g.mode = .setup → o = .supervisor) (s : Shape) (cells : CellSet) (excluded priority : Nat)
    (h : g.tableFits) : (g.addClaim (g.newClaim x o s cells excluded priority)).tableFits := by
  obtain ⟨fit, differ, -, setup⟩ := h
  have fresh := Guard.claimNumber_fresh room
  refine ⟨fun y => ?_, ?_, fun m => ?_, fun m d hd => ?_⟩
  · rw [Guard.claimCount_eq, Guard.addClaim_keys, List.filter_append, List.length_append, ← Guard.claimCount_eq]
    by_cases e : x = y
    · subst e
      have le := List.length_filter_le (fun k : ClaimKey => k.arm = x) [(g.newClaim x o s cells excluded priority).key]
      rw [List.length_singleton] at le
      omega
    · have other : ([(g.newClaim x o s cells excluded priority).key].filter fun k => k.arm = y) = [] := by
        simp [Guard.newClaim, Claim.key, e]
      rw [other]
      exact fit y
  · rw [Guard.keysDiffer, Guard.addClaim_keys]
    exact List.nodup_append.2 ⟨differ, List.nodup_singleton _, fun k hk l hl e =>
      fresh (by rw [e, List.mem_singleton.1 hl] at hk; exact hk)⟩
  · exact absurd (Guard.addClaim_mode g _ ▸ m) mode
  · rw [Guard.addClaim_mode] at m
    rcases List.mem_append.1 hd with hd | hd
    · exact setup m d hd
    · rw [List.mem_singleton.1 hd, origin m]
      rfl

theorem Guard.addClaim_prioritiesFit {g : Guard} {x : Arm} {o : Origin} {s : Shape} {cells : CellSet}
    {excluded priority : Nat} (le : priority ≤ 7) (h : g.prioritiesFit) :
    (g.addClaim (g.newClaim x o s cells excluded priority)).prioritiesFit := by
  obtain ⟨claims, entries⟩ := h
  refine ⟨fun d hd => ?_, fun y i p hp => entries y i p (by rwa [Guard.addClaim_slot] at hp)⟩
  rcases List.mem_append.1 hd with hd | hd
  · exact claims d hd
  · rw [List.mem_singleton.1 hd]
    exact ⟨Nat.le_refl _, le⟩

/-- The shared operations never enter INIT, and leave GUARD alone. -/
theorem Guard.Change.mode_ne_init {g h : Guard} (c : Guard.Change g h) (m : g.mode ≠ .init) : h.mode ≠ .init :=
  fun e => m (c.carries.init e)

theorem Guard.Change.mode_guarding {g h : Guard} (c : Guard.Change g h) (m : g.mode = .guarding) : h.mode = .guarding := by
  rcases c.mode with e | ⟨e, -⟩
  · exact e.trans m
  · rw [m] at e
    cases e

theorem Guard.serveClaimFor_orderly {g : Guard} (mode : g.mode ≠ .init) (p : List Byte) :
    g.Orderly (g.serveClaimFor p).1.guard := by
  unfold Guard.serveClaimFor
  dsimp only
  split
  · rename_i x s _ _
    split
    · exact .refl g
    · rename_i room
      have formed := g.event.form_change (s.cells g.cfg)
      split
      · exact formed.carries.orderly
      · refine formed.carries.orderly.trans ⟨?_, Guard.addClaim_prioritiesFit (Nat.le_refl 7)⟩
        exact Guard.addClaim_tableFits (Nat.lt_of_le_of_lt (Guard.claimCount_le formed.keys x) (by simpa using room))
          (formed.mode_ne_init mode) (fun _ => rfl) _ _ _ _
  · exact .refl g

/-- REQUEST makes its claim in GUARD, with the priority of a stored entry. -/
theorem Guard.requestEntry_orderly {g : Guard} (mode : g.mode = .guarding) {x : Arm} (room : g.claimCount x < 2)
    (i : SlotIx) (p : Plan) {e : PlanEntry} (le : g.prioritiesFit → e.priority ≤ 7) :
    g.Orderly (g.requestEntry x i p e).1.guard := by
  have formed := g.event.form_change (e.shape.cells g.cfg)
  unfold Guard.requestEntry
  dsimp only
  split
  · exact formed.carries.orderly
  · rename_i q plan
    have issued := formed.carries.trans (Event.issue_carries _ x i ⟨i, q, plan, rfl⟩)
    split
    · exact (issued.trans (Event.tally_change _ x i .missed).carries).orderly
    · have guarding : ∀ ev : Event, ev.guard.mode = .guarding → (ev.issue x i q).guard.mode = .guarding := by
        intro ev h
        unfold Event.issue
        dsimp only
        split <;> exact (Guard.onArm_mode _ _ _).trans h
      have mode := guarding _ (formed.mode_guarding mode)
      refine ⟨fun fits => ?_, fun fits => ?_⟩
      · exact Guard.addClaim_tableFits (Nat.lt_of_le_of_lt (Guard.claimCount_le issued.keys x) room)
          (by rw [mode]; decide) (fun setup => by rw [mode] at setup; cases setup) _ _ _ _ (issued.tableFits fits)
      · exact Guard.addClaim_prioritiesFit (le fits) (issued.prioritiesFit fits)

theorem Guard.serveRequest_orderly (g : Guard) (x : Arm) : g.Orderly (g.serveRequest x).1.guard := by
  unfold Guard.serveRequest
  split
  · exact .refl g
  · rename_i mode
    split
    · exact .refl g
    · split
      · exact .refl g
      · rename_i i p active
        split
        · exact .refl g
        · rename_i room
          split
          · exact .refl g
          · rename_i e entry
            refine Guard.requestEntry_orderly (not_not.1 mode) (by simpa using room) i p fun fits => ?_
            refine fits.2 x i p ?_ e (List.mem_of_getElem? entry)
            rw [ArmState.activePlan_some active]
            rfl

/-- LOAD_PLAN stores no priority above 7 (R106). -/
theorem Guard.serveLoadPlan_orderly (g : Guard) (p : List Byte) : g.Orderly (g.serveLoadPlan p).1.guard := by
  unfold Guard.serveLoadPlan
  dsimp only
  split
  · rename_i x _ _ _
    split
    · exact .refl g
    · split
      · exact .refl g
      · rename_i es _
        split
        · exact .refl g
        · rename_i i _
          generalize hs : (if (g.arm x).activePlan.isNone then
            Slot.active (newPlan (u16 p 1) (u8 p 3) (es.map PlanEntry.stored))
            else Slot.loaded (newPlan (u16 p 1) (u8 p 3) (es.map PlanEntry.stored))) = s
          have plan : s.plan? = some (newPlan (u16 p 1) (u8 p 3) (es.map PlanEntry.stored)) := by
            rw [← hs]
            split <;> rfl
          refine ⟨fun h => ?_, fun h => ⟨fun c hc => h.1 c (by simpa using hc), fun y j q hq e he => ?_⟩⟩
          · have same : (g.onArm x fun a => a.setSlot i s).claims = g.claims := Guard.onArm_claims _ _ _
            simpa [Guard.tableFits, Guard.claimsFit, Guard.claimCount, Guard.keysDiffer, Guard.keys,
              Guard.claimsFitMode, same] using h
          · rw [Guard.event_guard, Guard.arm_onArm_eq] at hq
            split at hq
            · rw [ArmState.slot_setSlot_eq] at hq
              split at hq
              · rw [plan] at hq
                cases hq
                obtain ⟨d, -, rfl⟩ := List.mem_map.1 he
                exact Nat.min_le_left _ _
              · exact h.2 y j q hq e he
            · exact h.2 y j q hq e he
  · exact .refl g

/-- A priority raised by one stays between its base and 7 (R78). -/
theorem Guard.agingExpiry_orderly (g : Guard) (k : ClaimKey) : g.Orderly (g.agingExpiry k).guard := by
  have key : ∀ c : Claim, (if c.key = k then c.aged g else c).key = c.key := fun c => by split <;> rfl
  have origin : ∀ c : Claim, (if c.key = k then c.aged g else c).isPlan = c.isPlan := fun c => by split <;> rfl
  have keys : (g.agingExpiry k).guard.keys = g.keys := by
    change (g.claims.map fun c => if c.key = k then c.aged g else c).map Claim.key = g.claims.map Claim.key
    rw [List.map_map]
    exact List.map_congr_left fun c _ => key c
  refine ⟨?_, ?_⟩
  · rintro ⟨fit, differ, init, setup⟩
    refine ⟨fun x => ?_, by rwa [Guard.keysDiffer, keys], fun m => ?_, fun m d hd => ?_⟩
    · rw [Guard.claimCount_eq, keys, ← Guard.claimCount_eq]
      exact fit x
    · exact List.map_eq_nil_iff.2 (init m)
    · obtain ⟨c, hc, rfl⟩ := List.mem_map.1 hd
      exact (origin c).trans (setup m c hc)
  · rintro ⟨claims, entries⟩
    refine ⟨fun d hd => ?_, fun x => by cases x; exacts [entries .A, entries .B]⟩
    obtain ⟨c, hc, rfl⟩ := List.mem_map.1 hd
    obtain ⟨base, le⟩ := claims c hc
    split
    · exact ⟨Nat.le_min.2 ⟨base.trans le, Nat.le_succ_of_le base⟩, Nat.min_le_left _ _⟩
    · exact ⟨base, le⟩

/-! ## Every step -/

theorem Guard.serve_orderly (g : Guard) (l : Link) (kind : Byte) (p : List Byte) :
    g.Orderly (g.serve l kind p).1.guard := by
  by_cases init : g.mode = .init
  · unfold Guard.serve
    rw [if_pos init]
    exact .refl g
  · exact Guard.serve_cases (Q := fun ev => g.Orderly ev.guard) g l kind p (.refl g) (g.serveConfigure_carries p).orderly
      g.serveStart_carries.orderly g.serveStop_carries.orderly g.serveRestart_carries.orderly
      (g.serveFence_carries p).orderly (g.serveUnfence_carries p).orderly (g.serveLoadPlan_orderly p)
      (g.serveDropPlan_carries p).orderly (Guard.serveClaimFor_orderly init p) (g.serveRevoke_carries p).orderly
      (g.serveClearFaults_carries p).orderly (g.event.readCells_change .report g.cfg.gridCells).carries.orderly
      (g.serveGetRow_carries p).orderly (g.serveSetCounters_carries p).orderly

theorem Guard.discardSample_carries (g : Guard) (x : Arm) (p : List Byte) : g.Carries (g.discardSample x p).1.guard := by
  unfold Guard.discardSample
  rw [Guard.event_guard]
  exact .beside g x fun _ i => by cases i <;> rfl

theorem Guard.serveArm_orderly (g : Guard) (x : Arm) (kind : Byte) (p : List Byte) :
    g.Orderly (g.serveArm x kind p).1.guard :=
  Guard.serveArm_cases (Q := fun ev => g.Orderly ev.guard) g x kind p (.refl g)
    (g.discardSample_carries x p).orderly (g.serveSample_carries x p).orderly (g.serveRequest_orderly x)
    (g.serveSkip_carries x).orderly (g.serveRelease_carries x p).orderly

/-- A power cycle has an empty table and no plan. -/
theorem Guard.powerOn_orderly (g : Guard) : g.Orderly { Guard.initial with findings := g.findings, reads := g.reads } where
  table _ := ⟨fun _ => Nat.zero_le _, List.nodup_nil, fun _ => rfl, Mode.noConfusion⟩
  priorities _ := ⟨fun _ hc => by (cases hc), fun x i p hp => by (cases x <;> cases i <;> cases hp)⟩

/-- What `Guard.Orderly` hands on, given the empty table of INIT where INIT ends. -/
theorem Guard.Kept.of_orderly {P : Guard → Prop} (h : ∀ g k : Guard, g.Orderly k → P g → P k)
    (initEnd : ∀ g : Guard, g.mode = .init → P g → P g.endInit.guard) : Guard.Kept P where
  powerOn g := h _ _ g.powerOn_orderly
  permitLoss g := h _ _ (g.cutLines_carries.trans (k := { g.cutLines with permitSupply := false })
    (.of_same rfl rfl fun x i => by cases x <;> rfl)).orderly
  logicLoss g := h _ _ (g.cutLines_carries.trans (k := { g.cutLines with powered := false })
    (.of_same rfl rfl fun x i => by cases x <;> rfl)).orderly
  shorted g x line overheats := h _ _ (Guard.Carries.beside g x fun _ i => by cases i <;> rfl).orderly
  initEnd g m p := h _ _ (Event.finish_carries _).orderly (initEnd g m p)
  serve g l kind p := h _ _ ((g.serve_orderly l kind p).trans (Event.finish_carries _).orderly)
  serveArm g x kind p _ := h _ _ ((g.serveArm_orderly x kind p).trans (Event.finish_carries _).orderly)
  gapExpiry g x _ := h _ _ ((g.gapExpiry_carries x).trans (Event.finish_carries _)).orderly
  agingExpiry g _ c _ _ := h _ _ ((g.agingExpiry_orderly c.key).trans (Event.finish_carries _).orderly)
  timeoutExpiry g _ c _ _ := h _ _ ((g.quietEvent.bounce_change c .timeout).carries.trans (Event.finish_carries _)).orderly
  slowExpiry g x _ := h _ _ ((g.slowExpiry_carries x).trans (Event.finish_carries _)).orderly
  holdExpiry g x _ := h _ _ ((g.holdExpiry_carries x).trans (Event.finish_carries _)).orderly
  leak g := h _ _ (Guard.Carries.of_same (g := g) (h := g.leak) rfl rfl fun x i => by cases x <;> rfl).orderly
  visit g _ := h _ _ (g.visit_carries.trans (Event.finish_carries _)).orderly
  tick g := h _ _ g.tick_carries.orderly

/-- Settles O53: the shared operations add no claim and enter SETUP without a PLAN claim alone; a new claim takes a number that
no claim of its arm has. -/
theorem claimTableStaysInOrder : Obligations.ClaimTableStaysInOrder := by
  intro s t h e
  have kept : Guard.Kept Guard.tableFits := .of_orderly (fun _ _ k => k.table) fun g m fits =>
    (Guard.endInit_carries (fits.2.2.1 m)).tableFits fits
  exact kept.step e h

/-- The end of INIT leaves claims, whatever they are, and plans. -/
theorem Guard.endInit_prioritiesFit (g : Guard) (h : g.prioritiesFit) : g.endInit.guard.prioritiesFit := by
  have verified := (g.quietEvent.rewriteAll_change .init storeCells).carries.prioritiesFit h
  have levels : ∀ k : Guard, k.prioritiesFit → k.leaveInit.prioritiesFit := by
    intro k hk
    unfold Guard.leaveInit Guard.levelsFromSources
    refine (Guard.Change.trans (.trans (.changeLevel _ .A _) (.changeLevel _ .B _))
      (.restartScrub _)).carries.prioritiesFit ⟨hk.1, fun x => ?_⟩
    cases x
    · exact hk.2 .A
    · exact hk.2 .B
  exact levels _ verified

/-- Settles O59: a claim is made with a stored entry's priority or with 7, and ages to 7 at most. -/
theorem prioritiesStayInRange : Obligations.PrioritiesStayInRange := by
  intro s t h e
  have kept : Guard.Kept Guard.prioritiesFit := .of_orderly (fun _ _ k => k.priorities) fun g _ => g.endInit_prioritiesFit
  exact kept.step e h

end Sys2Proof.Machine

/-! # The step of the time base (O41)

A step outside INIT changes each arm's counters alone: TIME_SLOW_OR_ABOVE by the level, the rest by the cause of the arm's
wait, which looks at the claims and the store and so is the same before and after the other counters have moved. -/

namespace Sys2Proof.Machine

/-! ## One arm's counters -/

/-- A counter whose event has come about once. -/
def Counter.bumped (k : Counter) : Counter := ⟨k.selection, sat32 (k.value + 1)⟩

theorem Counter.signal_one (e : CountEvent) (k : Counter) : k.signal e 1 = if k.selection = e then k.bumped else k := rfl

/-- An arm after a step at its level. -/
def ArmState.restrained (a : ArmState) : ArmState :=
  if a.unit.level = .none then a else a.signalled .timeSlowOrAbove 1

/-- An arm after a step of waiting for a cause. -/
def ArmState.waited (a : ArmState) : Option CountEvent → ArmState
  | none => a
  | some e =>
    let b := (a.signalled .waitTotal 1).signalled e 1
    { b with counters := b.counters.wait e }

theorem Guard.restraintStep_eq (g : Guard) (x : Arm) : g.restraintStep x = g.onArm x ArmState.restrained := by
  unfold Guard.restraintStep
  rw [Guard.signal_eq]
  split
  · rename_i h
    exact (Guard.onArm_self (f := ArmState.restrained) (if_pos h)).symm
  · rename_i h
    exact Guard.onArm_congr (f' := ArmState.restrained) (if_neg h).symm

theorem Guard.waitStep_eq (g : Guard) (x : Arm) : g.waitStep x = g.onArm x fun a => a.waited (g.waitCause x) := by
  unfold Guard.waitStep
  split
  · rename_i h
    rw [h]
    exact (Guard.onArm_self rfl).symm
  · rename_i e h
    rw [h, Guard.signal_eq, Guard.signal_eq, Guard.onArm_onArm, Guard.onArm_onArm]
    rfl

theorem Guard.waitCause_onArm (g : Guard) (x y : Arm) (f : ArmState → ArmState) :
    (g.onArm y f).waitCause x = g.waitCause x := by
  cases y <;> rfl

/-- What a step outside INIT does to an arm. -/
def Guard.ticked (g : Guard) (x : Arm) (a : ArmState) : ArmState := a.restrained.waited (g.waitCause x)

theorem Guard.tick_eq {g : Guard} (h : g.mode ≠ .init) :
    g.tick = { (g.onArm .A (g.ticked .A)).onArm .B (g.ticked .B) with now := g.now + 1 } := by
  unfold Guard.tick
  rw [if_neg h, Guard.restraintStep_eq, Guard.waitStep_eq, Guard.restraintStep_eq, Guard.waitStep_eq]
  simp only [Guard.waitCause_onArm, Guard.onArm_onArm]
  rfl

theorem Guard.tick_arm {g : Guard} (h : g.mode ≠ .init) (x : Arm) : g.tick.arm x = g.ticked x (g.arm x) := by
  rw [Guard.tick_eq h]
  cases x <;> rfl

theorem ArmState.restrained_counters (a : ArmState) : { a.restrained with counters := a.counters } = a := by
  unfold ArmState.restrained
  split <;> rfl

theorem ArmState.waited_counters (a : ArmState) (e : Option CountEvent) :
    { a.waited e with counters := a.counters } = a := by
  cases e <;> rfl

theorem Guard.ticked_counters (g : Guard) (x : Arm) (a : ArmState) : { g.ticked x a with counters := a.counters } = a := by
  have waited := a.restrained.waited_counters (g.waitCause x)
  exact (congrArg (fun b : ArmState => { b with counters := a.counters }) waited).trans a.restrained_counters

/-! ## The cause of a wait (R84) -/

/-- The arm's eligible claim has a cell whose entry satisfies `p`. -/
def Guard.waitsOn (g : Guard) (x : Arm) (p : Entry → Prop) : Prop :=
  ∃ k, g.eligible x = some k ∧ ∃ c ∈ k.effective, p (g.entryOf c)

/-- A cell that the other arm owns and does not vacate. -/
def Guard.waitsForOther (g : Guard) (x : Arm) : Prop := g.waitsOn x fun e => e.owner = some x.other ∧ e.vacating = false

/-- A cell that the other arm vacates, and none that it owns otherwise. -/
def Guard.waitsForVacating (g : Guard) (x : Arm) : Prop :=
  ¬g.waitsForOther x ∧ g.waitsOn x fun e => e.owner = some x.other ∧ e.vacating = true

/-- A cell reserved for the other arm, and none that it owns. -/
def Guard.waitsForReserved (g : Guard) (x : Arm) : Prop :=
  ¬g.waitsForOther x ∧ ¬g.waitsForVacating x ∧ g.waitsOn x fun e => e.reservedFor = some x.other

/-- An arm's step goes to the first of the three causes that its claim's cells show, or to none. -/
theorem Guard.waitCause_cases (g : Guard) (x : Arm) :
    (g.waitCause x = some .waitOther ∧ g.waitsForOther x) ∨
    (g.waitCause x = some .waitVacating ∧ ¬g.waitsForOther x ∧ g.waitsForVacating x) ∨
    (g.waitCause x = some .waitReserved ∧ ¬g.waitsForOther x ∧ ¬g.waitsForVacating x ∧ g.waitsForReserved x) ∨
    (g.waitCause x = none ∧ ¬g.waitsForOther x ∧ ¬g.waitsForVacating x ∧ ¬g.waitsForReserved x) := by
  unfold Guard.waitCause
  split
  · rename_i none
    have nowhere : ∀ p, ¬g.waitsOn x p := fun p ⟨k, hk, _⟩ => by rw [none] at hk; cases hk
    exact .inr (.inr (.inr ⟨rfl, nowhere _, fun h => nowhere _ h.2, fun h => nowhere _ h.2.2⟩))
  · rename_i c eligible
    have on : ∀ p : Entry → Bool, (c.effective.map g.entryOf).any p = true ↔ g.waitsOn x fun e => p e = true := by
      intro p
      simp [Guard.waitsOn, eligible]
    have other := on fun e => e.owner = some x.other && !e.vacating
    have vacating := on fun e => e.owner = some x.other && e.vacating
    have reserved := on fun e => e.reservedFor = some x.other
    simp only [Bool.and_eq_true, decide_eq_true_eq, Bool.not_eq_true'] at other vacating reserved
    simp only [Guard.waitsForReserved, Guard.waitsForVacating, Guard.waitsForOther, ← other, ← vacating, ← reserved]
    split
    · simp_all
    · split
      · simp_all
      · split <;> simp_all

theorem Guard.waitCause_ne_total (g : Guard) (x : Arm) : g.waitCause x ≠ some .waitTotal := by
  rcases g.waitCause_cases x with ⟨e, -⟩ | ⟨e, -⟩ | ⟨e, -⟩ | ⟨e, -⟩ <;> simp [e]

/-! ## What a step counts -/

/-- The accumulators of the three causes. -/
theorem ArmState.waited_accumulators (a : ArmState) (e : Option CountEvent) :
    (a.waited e).counters.discarded = a.counters.discarded ∧
    (a.waited e).counters.waitOther = (if e = some .waitOther then sat32 (a.counters.waitOther + 1) else a.counters.waitOther) ∧
    (a.waited e).counters.waitVacating =
      (if e = some .waitVacating then sat32 (a.counters.waitVacating + 1) else a.counters.waitVacating) ∧
    (a.waited e).counters.waitReserved =
      (if e = some .waitReserved then sat32 (a.counters.waitReserved + 1) else a.counters.waitReserved) := by
  cases e with
  | none => exact ⟨rfl, rfl, rfl, rfl⟩
  | some e => cases e <;> exact ⟨rfl, rfl, rfl, rfl⟩

theorem ArmState.restrained_accumulators (a : ArmState) :
    a.restrained.counters.discarded = a.counters.discarded ∧ a.restrained.counters.waitOther = a.counters.waitOther ∧
    a.restrained.counters.waitVacating = a.counters.waitVacating ∧
    a.restrained.counters.waitReserved = a.counters.waitReserved := by
  unfold ArmState.restrained
  split <;> exact ⟨rfl, rfl, rfl, rfl⟩

theorem ArmState.restrained_counter (a : ArmState) (n : Nat) : a.restrained.counters.selectable.get n =
    if (a.counters.selectable.get n).selection = .timeSlowOrAbove ∧ a.unit.level ≠ .none
    then (a.counters.selectable.get n).bumped else a.counters.selectable.get n := by
  unfold ArmState.restrained
  split
  · rename_i h
    rw [if_neg fun k => k.2 h]
  · rename_i h
    rw [ArmState.signalled_counter, Counter.signal_one]
    simp [h]

/-- A counter of WAIT_TOTAL counts every cause, one of a cause that cause. -/
theorem ArmState.waited_counter (a : ArmState) {e : Option CountEvent} (h : e ≠ some .waitTotal) (n : Nat) :
    (a.waited e).counters.selectable.get n =
      if e.isSome ∧ ((a.counters.selectable.get n).selection = .waitTotal ∨ some (a.counters.selectable.get n).selection = e)
      then (a.counters.selectable.get n).bumped else a.counters.selectable.get n := by
  cases e with
  | none => simp [ArmState.waited]
  | some e =>
    have same : ((a.waited (some e)).counters.selectable.get n) =
        (((a.signalled .waitTotal 1).signalled e 1).counters.selectable.get n) := by
      cases e <;> rfl
    rw [same, ArmState.signalled_counter, ArmState.signalled_counter, Counter.signal_one, Counter.signal_one]
    by_cases total : (a.counters.selectable.get n).selection = .waitTotal
    · have ne : CountEvent.waitTotal ≠ e := fun k => h (k ▸ rfl)
      simp [total, ne, Counter.bumped]
    · simp [total]

/-- A selectable counter rises by one for a step of the level or of the cause that it selects, and otherwise stays. -/
theorem Guard.ticked_counter (g : Guard) (x : Arm) (a : ArmState) (n : Nat) :
    let k := a.counters.selectable.get n
    let counts := (k.selection = .waitTotal ∧ (g.waitsForOther x ∨ g.waitsForVacating x ∨ g.waitsForReserved x)) ∨
      (k.selection = .waitOther ∧ g.waitsForOther x) ∨ (k.selection = .waitVacating ∧ g.waitsForVacating x) ∨
      (k.selection = .waitReserved ∧ g.waitsForReserved x) ∨ (k.selection = .timeSlowOrAbove ∧ a.unit.level ≠ .none)
    (counts → (g.ticked x a).counters.selectable.get n = k.bumped) ∧
      (¬counts → (g.ticked x a).counters.selectable.get n = k) := by
  intro k counts
  have waited := a.restrained.waited_counter (g.waitCause_ne_total x) n
  rw [a.restrained_counter n] at waited
  change (g.ticked x a).counters.selectable.get n = _ at waited
  have cause : counts ↔ (k.selection = .timeSlowOrAbove ∧ a.unit.level ≠ .none) ∨
      ((g.waitCause x).isSome ∧ (k.selection = .waitTotal ∨ some k.selection = g.waitCause x)) := by
    rcases g.waitCause_cases x with ⟨e, o⟩ | ⟨e, o, v⟩ | ⟨e, o, v, r⟩ | ⟨e, o, v, r⟩
    · have v : ¬g.waitsForVacating x := fun h => h.1 o
      have r : ¬g.waitsForReserved x := fun h => h.1 o
      simp only [counts, e, o, v, r, Option.isSome_some, Option.some.injEq]
      tauto
    · have r : ¬g.waitsForReserved x := fun h => h.2.1 v
      simp only [counts, e, o, v, r, Option.isSome_some, Option.some.injEq]
      tauto
    · simp only [counts, e, o, v, r, Option.isSome_some, Option.some.injEq]
      tauto
    · simp only [counts, e, o, v, r, Option.isSome_none]
      tauto
  rw [cause, waited]
  by_cases slow : k.selection = .timeSlowOrAbove ∧ a.unit.level ≠ .none
  · have other : some k.selection ≠ g.waitCause x := by
      rw [slow.1]
      rcases g.waitCause_cases x with ⟨e, -⟩ | ⟨e, -⟩ | ⟨e, -⟩ | ⟨e, -⟩ <;> simp [e]
    have total : k.selection ≠ .waitTotal := by rw [slow.1]; decide
    rw [if_pos slow, if_neg fun h => h.2.elim total other]
    exact ⟨fun _ => rfl, fun h => absurd (.inl slow) h⟩
  · rw [if_neg slow]
    simp only [slow, false_or]
    exact ⟨fun h => if_pos h, fun h => if_neg h⟩

/-- The accumulator of the step's cause rises by one, the others stay. -/
theorem Guard.ticked_accumulators (g : Guard) (x : Arm) (a : ArmState) :
    let was := a.counters
    let is := (g.ticked x a).counters
    is.discarded = was.discarded ∧
    (g.waitsForOther x → is.waitOther = sat32 (was.waitOther + 1)) ∧ (¬g.waitsForOther x → is.waitOther = was.waitOther) ∧
    (g.waitsForVacating x → is.waitVacating = sat32 (was.waitVacating + 1)) ∧
    (¬g.waitsForVacating x → is.waitVacating = was.waitVacating) ∧
    (g.waitsForReserved x → is.waitReserved = sat32 (was.waitReserved + 1)) ∧
    (¬g.waitsForReserved x → is.waitReserved = was.waitReserved) := by
  intro was is
  obtain ⟨discarded, other, vacating, reserved⟩ := a.restrained.waited_accumulators (g.waitCause x)
  obtain ⟨sameDiscarded, sameOther, sameVacating, sameReserved⟩ := a.restrained_accumulators
  rw [sameDiscarded] at discarded
  rw [sameOther] at other
  rw [sameVacating] at vacating
  rw [sameReserved] at reserved
  simp only [is, was, Guard.ticked]
  rw [discarded, other, vacating, reserved]
  rcases g.waitCause_cases x with ⟨e, o⟩ | ⟨e, o, v⟩ | ⟨e, o, v, r⟩ | ⟨e, o, v, r⟩
  · have v : ¬g.waitsForVacating x := fun h => h.1 o
    have r : ¬g.waitsForReserved x := fun h => h.1 o
    simp [e, o, v, r]
  · have r : ¬g.waitsForReserved x := fun h => h.2.1 v
    simp [e, o, v, r]
  · simp [e, o, v, r]
  · simp [e, o, v, r]

theorem Guard.tick_init {g : Guard} (h : g.mode = .init) : g.tick = { g with now := g.now + 1 } := by
  unfold Guard.tick
  rw [if_pos h]

/-- A step leaves everything but the arms and the time base. -/
theorem Guard.tick_rest (g : Guard) : { g.tick with a := g.a, b := g.b, now := g.now } = g := by
  by_cases init : g.mode = .init
  · rw [Guard.tick_init init]
  · rw [Guard.tick_eq init]
    rfl

theorem Guard.tick_now (g : Guard) : g.tick.now = g.now + 1 := rfl

/-- Settles O41: a step changes the counters of each arm by its cause and its level. -/
theorem timeBaseAdvances : Obligations.TimeBaseAdvances := by
  unfold Obligations.TimeBaseAdvances
  intro s powered
  refine ⟨{ s with guard := s.guard.tick }, State.whenPowered_on powered fun s => { s with guard := s.guard.tick }, rfl,
    s.guard.tick_now, s.guard.tick_rest, Guard.tick_init, fun x => ?_⟩
  by_cases init : s.guard.mode = .init
  · refine ⟨?_, absurd init⟩
    rw [Guard.tick_init init]
    cases x <;> rfl
  · dsimp only
    rw [Guard.tick_arm init]
    refine ⟨s.guard.ticked_counters x _, fun _ => ?_⟩
    obtain ⟨discarded, other, notOther, vacating, notVacating, reserved, notReserved⟩ :=
      s.guard.ticked_accumulators x (s.guard.arm x)
    exact ⟨discarded, other, notOther, vacating, notVacating, reserved, notReserved,
      fun n _ => s.guard.ticked_counter x (s.guard.arm x) n⟩

end Sys2Proof.Machine

/-! # The evaluation candidate by candidate

With good reads the test of a candidate draws findings and says what the store's entries say; the candidate is then granted,
or reserves at priority 7, or is left as it is (`Event.tried`). Who comes next is read off the list of the waiting claims. -/

namespace Sys2Proof.Machine

/-! ## The test (R73) -/

/-- No entry of a claim's effective set stands in its way. -/
def Guard.passes (g : Guard) (c : Claim) : Bool :=
  c.effective.all fun d => (g.entryOf d).faultFence ≠ .poisoned && (g.entryOf d).availableTo c.arm

/-- What the test of some cells says, `none` where one is poisoned. -/
def Guard.tests (g : Guard) (x : Arm) (ok : Bool) (cells : CellSet) : Option Bool :=
  if cells.all fun d => (g.entryOf d).faultFence ≠ .poisoned then
    some (ok && cells.all fun d => (g.entryOf d).availableTo x) else none

theorem Guard.tests_cons (g : Guard) (x : Arm) (ok : Bool) (c : Cell) (cs : CellSet) :
    g.tests x ok (c :: cs) =
      if (g.entryOf c).faultFence = .poisoned then none else g.tests x (ok && (g.entryOf c).availableTo x) cs := by
  unfold Guard.tests
  by_cases h : (g.entryOf c).faultFence = .poisoned <;> simp [h, Bool.and_assoc]

theorem Guard.passes_eq (g : Guard) (c : Claim) :
    g.passes c = ((c.effective.all fun d => (g.entryOf d).faultFence ≠ .poisoned) &&
      c.effective.all fun d => (g.entryOf d).availableTo c.arm) := by
  rw [Bool.eq_iff_iff]
  simp [Guard.passes, forall_and]

theorem Guard.tests_claim (g : Guard) (c : Claim) : (g.tests c.arm true c.effective).getD false = g.passes c := by
  rw [Guard.passes_eq]
  unfold Guard.tests
  split
  · rename_i whole
    rw [whole]
    rfl
  · rename_i whole
    rw [Bool.eq_false_iff.mpr whole]
    rfl

/-- What the test says, where every read of it finds its entry good. -/
theorem Event.testCells_verdict {cells : CellSet} {ev : Event} (good : ev.guard.foretoldGood) (touched : ev.touched = [])
    {x : Arm} {ok : Bool} (reads : (ev.testCells x ok cells).1.guard.reads = ev.guard.reads) :
    (ev.testCells x ok cells).2 = ev.guard.tests x ok cells := by
  induction cells generalizing ev ok with
  | nil => simp [Event.testCells, Guard.tests]
  | cons c cs ih =>
    have first : (ev.readCell .arbiter c).1.guard.reads = ev.guard.reads := by
      refine Nat.le_antisymm ?_ (ev.readCell_reads_le _ c)
      rw [← reads]
      unfold Event.testCells
      dsimp only
      split
      · exact Nat.le_refl _
      · exact Event.testCells_reads_le _ _ _ _
    rw [Guard.tests_cons]
    unfold Event.testCells at reads ⊢
    dsimp only at reads ⊢
    rw [Event.readCell_drawn good touched first] at reads ⊢
    split
    · rfl
    · rename_i h
      rw [if_neg h] at reads
      exact ih (ev := ev.drawn (ev.guard.draws [c])) (good.drawn _) touched reads

/-- The test of some cells, none of them poisoned, whose findings are foretold good. -/
theorem Event.testCells_good {cells : CellSet} {ev : Event} (touched : ev.touched = [])
    (whole : ∀ d ∈ cells, (ev.guard.entryOf d).faultFence ≠ .poisoned) (good : ev.guard.goodFor (ev.guard.draws cells))
    (x : Arm) (ok : Bool) :
    ev.testCells x ok cells =
      (ev.drawn (ev.guard.draws cells), some (ok && cells.all fun d => (ev.guard.entryOf d).availableTo x)) := by
  induction cells generalizing ev ok with
  | nil => simp [Event.testCells, Event.drawn, Guard.draws, Guard.drawn_zero]
  | cons c cs ih =>
    rw [Guard.draws_cons] at good ⊢
    unfold Event.testCells
    dsimp only
    rw [ev.readCell_good .arbiter c touched (Guard.goodFor_mono good (Nat.le_add_right _ _))]
    dsimp only
    rw [if_neg (whole c List.mem_cons_self),
      ih (ev := ev.drawn (ev.guard.draws [c])) touched (fun d hd => whole d (List.mem_cons_of_mem _ hd))
        (Guard.goodFor_drawn good), Event.drawn_drawn, List.all_cons, ← Bool.and_assoc]
    rfl

/-- What the test of a candidate says, whatever its rounds: a poisoned cell stays poisoned. -/
theorem Event.testClaim_verdict (n : Nat) {ev : Event} (good : ev.guard.foretoldGood) (touched : ev.touched = [])
    {k : ClaimKey} {c : Claim} (found : ev.guard.claim? k = some c)
    (reads : (ev.testClaim n k).1.guard.reads = ev.guard.reads) :
    (ev.testClaim n k).2 = (decide (0 < n) && ev.guard.passes c) := by
  induction n generalizing ev with
  | zero => rfl
  | succ n ih =>
    have grows := ev.testCells_reads_le c.arm true c.effective
    have verdict := Event.testCells_verdict (cells := c.effective) (x := c.arm) (ok := true) good touched
    have drawn := Event.testCells_drawn (cells := c.effective) (x := c.arm) (ok := true) good touched
    have told := ev.guard.tests_claim c
    unfold Event.testClaim at reads ⊢
    rw [found] at reads ⊢
    dsimp only at reads ⊢
    generalize ev.testCells c.arm true c.effective = r at grows verdict drawn reads ⊢
    obtain ⟨ev', ok⟩ := r
    have first : ev'.guard.reads = ev.guard.reads := by
      refine Nat.le_antisymm ?_ grows
      rw [← reads]
      cases ok with
      | none => exact Event.testClaim_reads_le n ev' k
      | some ok =>
        dsimp only
        split
        · exact Nat.le_refl _
        · exact Event.testClaim_reads_le n ev' k
    obtain ⟨m, rfl⟩ := drawn first
    have verdict := verdict first
    dsimp only at verdict
    rw [← verdict] at told
    have found : (ev.drawn m).guard.claim? k = some c := found
    rw [← told]
    cases ok with
    | none =>
      dsimp only at reads ⊢
      have passes : (ev.drawn m).guard.passes c = false := told.symm
      rw [ih (ev := ev.drawn m) (good.drawn m) touched found reads, passes]
      simp
    | some ok =>
      dsimp only at reads ⊢
      rw [if_pos (by rw [found]; rfl)]
      simp

theorem Event.testClaim_good {ev : Event} (n : Nat) (touched : ev.touched = []) {k : ClaimKey} {c : Claim}
    (found : ev.guard.claim? k = some c) (whole : ∀ d ∈ c.effective, (ev.guard.entryOf d).faultFence ≠ .poisoned)
    (good : ev.guard.goodFor (ev.guard.draws c.effective)) :
    ev.testClaim (n + 1) k = (ev.drawn (ev.guard.draws c.effective),
      c.effective.all fun d => (ev.guard.entryOf d).availableTo c.arm) := by
  unfold Event.testClaim
  rw [found]
  dsimp only
  rw [Event.testCells_good touched whole good]
  dsimp only
  rw [if_pos (by rw [show (ev.drawn _).guard.claim? k = some c from found]; rfl), Bool.true_and]

/-! ## A candidate taken (R74, R76) -/

/-- What becomes of a candidate once it is tested. -/
def Event.tried (ev : Event) (c : Claim) (passes : Bool) : Event :=
  if passes then ev.grant c else if c.priority = 7 then ev.onGuard fun g => g.reserve c else ev

theorem Event.takeCandidate_tried {ev : Event} (good : ev.guard.foretoldGood) (touched : ev.touched = []) {k : ClaimKey}
    {c : Claim} (found : ev.guard.claim? k = some c) (reads : (ev.takeCandidate k).guard.reads = ev.guard.reads) :
    ∃ n, ev.takeCandidate k = (ev.drawn n).tried c (ev.guard.passes c) := by
  rw [Event.takeCandidate_reads] at reads
  obtain ⟨n, drawn⟩ := Event.testClaim_drawn 769 good touched reads
  have verdict := Event.testClaim_verdict 769 good touched found reads
  refine ⟨n, ?_⟩
  unfold Event.takeCandidate
  dsimp only
  rw [drawn, show (ev.drawn n).guard.claim? k = some c from found, verdict]
  rfl

theorem Event.takeCandidate_good {ev : Event} (touched : ev.touched = []) {k : ClaimKey} {c : Claim}
    (found : ev.guard.claim? k = some c) (whole : ∀ d ∈ c.effective, (ev.guard.entryOf d).faultFence ≠ .poisoned)
    (good : ev.guard.goodFor (ev.guard.draws c.effective)) :
    ev.takeCandidate k = (ev.drawn (ev.guard.draws c.effective)).tried c
      (c.effective.all fun d => (ev.guard.entryOf d).availableTo c.arm) := by
  unfold Event.takeCandidate
  rw [Event.testClaim_good 768 touched found whole good]
  dsimp only
  rw [show (ev.drawn _).guard.claim? k = some c from found]
  rfl

section
variable (ev : Event) (c : Claim) (passes : Bool)

/-- What a candidate taken leaves of the event, but for the guard and the notices. -/
theorem Event.tried_rest :
    ev.tried c passes = { ev with guard := (ev.tried c passes).guard, out := (ev.tried c passes).out } := by
  unfold Event.tried
  split
  · rfl
  · split <;> rfl

theorem Event.tried_reformed : (ev.tried c passes).reformed = ev.reformed := by
  rw [Event.tried_rest]

theorem Event.tried_out : (ev.tried c passes).out =
    ev.out ++ if passes then [.toArm c.arm (ev.guard.grantedNotice c)] else [] := by
  unfold Event.tried
  split
  · rfl
  · split <;> simp

theorem Event.grant_guard : (ev.grant c).guard =
    ((ev.guard.grant c).signal c.arm .grants 1).signal c.arm .cellsExcluded c.excluded := rfl

@[simp] theorem Guard.signal_claims (g : Guard) (x : Arm) (e : CountEvent) (n : Nat) : (g.signal x e n).claims = g.claims :=
  Guard.onArm_claims _ _ _

@[simp] theorem Guard.signal_lastGranted (g : Guard) (x : Arm) (e : CountEvent) (n : Nat) :
    (g.signal x e n).lastGranted = g.lastGranted := Guard.onArm_lastGranted _ _ _

theorem Guard.grant_lastGranted (g : Guard) (c : Claim) : (g.grant c).lastGranted = c.arm := by
  simp [Guard.grant]

theorem Guard.reserve_lastGranted (g : Guard) (c : Claim) : (g.reserve c).lastGranted = g.lastGranted := by
  simp [Guard.reserve, Guard.onClaim]

/-- The last-granted arm is that of the last grant (R72). -/
theorem Event.tried_lastGranted : (ev.tried c passes).guard.lastGranted =
    if passes then c.arm else ev.guard.lastGranted := by
  unfold Event.tried
  split
  · rw [Event.grant_guard, Guard.signal_lastGranted, Guard.signal_lastGranted, Guard.grant_lastGranted]
  · split
    · exact Guard.reserve_lastGranted _ _
    · rfl

end

/-- What the grant of a claim makes of each claim of the table (R74, R77). -/
def Claim.afterGrant (c d : Claim) : Claim :=
  let d := if d.key = c.key then d.granted else d
  if c.reserving = .senior ∧ d.arm = c.arm.other ∧ d.reserving = .junior then { d with reserving := .senior } else d

theorem Guard.grant_claims (g : Guard) (c : Claim) : (g.grant c).claims = g.claims.map c.afterGrant := by
  have claims : (g.grant c).claims = ((g.onClaim c.key Claim.granted).succeed c).claims := by
    rw [Guard.grant, Guard.reindex_claims]
    unfold Guard.succeed
    split <;> simp [Guard.promote, Guard.onVacate]
  rw [claims]
  unfold Guard.succeed Claim.afterGrant
  split
  · rename_i senior
    simp only [senior, true_and]
    exact List.map_map
  · rename_i senior
    simp only [senior, false_and, if_false]
    rfl

/-- What a reservation makes of the claim that reserves. -/
def Guard.reservation (g : Guard) (c d : Claim) : Claim :=
  if d.key = c.key then
    { d with reserving := g.rankOf c, reserved := unionCells c.reserved (minusCells c.effective (g.keptFrom c)) } else d

theorem Guard.reserve_claims (g : Guard) (c : Claim) : (g.reserve c).claims = g.claims.map (g.reservation c) := by
  rw [Guard.reserve, Guard.reindex_claims]
  rfl

/-- What a candidate taken makes of each claim of the table. -/
def Guard.afterTry (g : Guard) (c : Claim) (passes : Bool) (d : Claim) : Claim :=
  if passes then c.afterGrant d else if c.priority = 7 then g.reservation c d else d

theorem Event.tried_claims (ev : Event) (c : Claim) (passes : Bool) :
    (ev.tried c passes).guard.claims = ev.guard.claims.map (ev.guard.afterTry c passes) := by
  unfold Event.tried Guard.afterTry
  cases passes with
  | true => simp only [if_true, Event.grant_guard, Guard.signal_claims, Guard.grant_claims]
  | false =>
    simp only [Bool.false_eq_true, if_false]
    split
    · exact Guard.reserve_claims _ _
    · simp

/-! ## Whose turn it is (R70, R72) -/

/-- The waiting claims of the table, in the order of creation. -/
def Guard.waitingClaims (g : Guard) : List Claim := g.claims.filter Claim.isWaiting

theorem Guard.eligible_eq (g : Guard) (x : Arm) : g.eligible x = g.waitingClaims.find? fun c => c.arm = x := by
  unfold Guard.eligible Guard.waitingClaims
  rw [List.find?_filter]
  simp

theorem Guard.candidateOf_eq {g : Guard} {x : Arm} {c : Claim} (h : g.eligible x = some c) (taken : List ClaimKey) :
    g.candidateOf taken x = if c.key ∈ taken then none else some c := by
  unfold Guard.candidateOf
  rw [h]
  by_cases m : c.key ∈ taken <;> simp [m]

theorem Guard.candidateOf_none {g : Guard} {x : Arm} (h : g.eligible x = none) (taken : List ClaimKey) :
    g.candidateOf taken x = none := by
  unfold Guard.candidateOf
  rw [h]
  rfl

theorem Guard.nextCandidate_of_one {g : Guard} {taken : List ClaimKey} {x : Arm}
    (h : g.candidateOf taken x.other = none) : g.nextCandidate taken = g.candidateOf taken x := by
  unfold Guard.nextCandidate
  cases x with
  | A =>
    rw [show g.candidateOf taken .B = none from h]
    cases g.candidateOf taken .A <;> rfl
  | B => rw [show g.candidateOf taken .A = none from h]

/-- The only waiting claim is the candidate, once. -/
theorem Guard.nextCandidate_sole {g : Guard} {c : Claim} (sole : g.waitingClaims = [c]) (taken : List ClaimKey) :
    g.nextCandidate taken = if c.key ∈ taken then none else some c := by
  have own : g.eligible c.arm = some c := by
    rw [Guard.eligible_eq, sole]
    simp
  have other : g.eligible c.arm.other = none := by
    rw [Guard.eligible_eq, sole]
    cases arm : c.arm <;> simp [Arm.other, arm]
  rw [Guard.nextCandidate_of_one (Guard.candidateOf_none other taken), Guard.candidateOf_eq own]

/-- No candidate is left once every waiting claim is taken. -/
theorem Guard.nextCandidate_taken {g : Guard} {taken : List ClaimKey} (h : ∀ c ∈ g.waitingClaims, c.key ∈ taken) :
    g.nextCandidate taken = none := by
  have none : ∀ x, g.candidateOf taken x = none := by
    intro x
    cases e : g.eligible x with
    | none => exact Guard.candidateOf_none e taken
    | some c =>
      rw [Guard.candidateOf_eq e, if_pos (h c ?_)]
      rw [Guard.eligible_eq] at e
      exact List.mem_of_find?_eq_some e
  unfold Guard.nextCandidate
  rw [none, none]

/-! ## Rounds -/

/-- The event with no claim formed anew so far. -/
def Event.unformed (ev : Event) : Event := { ev with reformed := [] }

theorem Event.evaluateRounds_next {n : Nat} {ev : Event} {taken : List ClaimKey} {c : Claim}
    (next : ev.guard.nextCandidate taken = some c) {m : Nat} {passes : Bool}
    (took : ev.unformed.takeCandidate c.key = (ev.unformed.drawn m).tried c passes) :
    ev.evaluateRounds (n + 1) taken =
      ((ev.unformed.drawn m).tried c passes).evaluateRounds n (taken ++ [c.key]) := by
  have took : Event.takeCandidate { ev with reformed := [] } c.key = (ev.unformed.drawn m).tried c passes := took
  have none : ((ev.unformed.drawn m).tried c passes).reformed = [] := Event.tried_reformed _ _ _
  rw [Event.evaluateRounds, next]
  dsimp only
  rw [took, none]
  simp

theorem Event.evaluateRounds_over (n : Nat) {ev : Event} {taken : List ClaimKey}
    (next : ev.guard.nextCandidate taken = none) : ev.evaluateRounds n taken = ev := by
  cases n with
  | zero => rfl
  | succ n => rw [Event.evaluateRounds, next]

end Sys2Proof.Machine

/-! # A claim made while no other waits

The new claim is the one candidate of the evaluation that its making calls for: it is granted, reserves at priority 7, or
waits. Nothing else comes of the event (`Event.SoleOutcome`). -/

namespace Sys2Proof.Machine

/-! ## A table of held claims and one that waits -/

/-- `c`, made last, is the one waiting claim of the table, and no claim reserves. -/
structure Guard.SoleWaits (g : Guard) (old : List Claim) (c : Claim) : Prop where
  claims : g.claims = old ++ [c]
  held : ∀ d ∈ old, d.phase = .held ∧ d.reserving = .no
  fresh : ∀ d ∈ old, d.key ≠ c.key
  waiting : c.phase = .waiting
  reserving : c.reserving = .no
  reserved : c.reserved = []

section
variable {g : Guard} {old : List Claim} {c : Claim} (s : g.SoleWaits old c)
include s

theorem Guard.SoleWaits.waitingClaims : g.waitingClaims = [c] := by
  have none : old.filter Claim.isWaiting = [] := List.filter_eq_nil_iff.2 fun d hd => by
    simp [Claim.isWaiting, (s.held d hd).1]
  rw [Guard.waitingClaims, s.claims, List.filter_append, none]
  simp [Claim.isWaiting, s.waiting]

theorem Guard.SoleWaits.claim? : g.claim? c.key = some c := by
  have none : old.find? (fun d => d.key = c.key) = none := List.find?_eq_none.2 fun d hd => by simp [s.fresh d hd]
  rw [Guard.claim?, s.claims, List.find?_append, none]
  simp

theorem Guard.SoleWaits.granted_claims : g.claims.map c.afterGrant = old ++ [c.granted] := by
  have same : old.map c.afterGrant = old := by
    rw [List.map_congr_left (g := id) fun d hd => by simp [Claim.afterGrant, s.reserving, s.fresh d hd], List.map_id]
  rw [s.claims, List.map_append, same]
  simp [Claim.afterGrant, s.reserving]

theorem Guard.SoleWaits.reservingOf (x : Arm) : g.reservingOf x = none := by
  rw [Guard.reservingOf, s.claims]
  refine List.find?_eq_none.2 fun d hd => ?_
  rcases List.mem_append.1 hd with hd | hd
  · simp [(s.held d hd).2]
  · rw [List.mem_singleton.1 hd]
    simp [s.reserving]

/-- A claim that comes to reserve while none does is the senior, and reserves its whole effective set. -/
theorem Guard.SoleWaits.reserving_claims : g.claims.map (g.reservation c) =
    old ++ [{ c with reserving := .senior, reserved := unionCells [] (minusCells c.effective []) }] := by
  have rank : g.rankOf c = .senior := by simp [Guard.rankOf, s.reserving, s.reservingOf]
  have kept : g.keptFrom c = [] := by simp [Guard.keptFrom, s.reservingOf]
  have same : old.map (g.reservation c) = old := by
    rw [List.map_congr_left (g := id) fun d hd => by simp [Guard.reservation, s.fresh d hd], List.map_id]
  rw [s.claims, List.map_append, same]
  simp [Guard.reservation, rank, kept, s.reserved]

end

/-! ## What a candidate taken leaves of an arm -/

theorem Guard.grant_arm (g : Guard) (c : Claim) (x : Arm) :
    (g.grant c).arm x = (g.onVacate c.arm fun v => minusCells v c.effective).arm x := by
  unfold Guard.grant
  rw [Guard.reindex_arm]
  refine (Guard.succeed_arm (Guard.onVacate _ c.arm _) c x).trans ?_
  cases x <;> cases c.arm <;> rfl

/-- GRANTS and CELLS_EXCLUDED signalled to a counter are the counter at a grant. -/
theorem Counter.atGrant_eq (k : Counter) (n : Nat) : (k.signal .grants 1).signal .cellsExcluded n = k.atGrant n := by
  obtain ⟨selection, value⟩ := k
  cases selection <;> rfl

section
variable (ev : Event) (c : Claim) (passes : Bool)

theorem Event.grant_arm (x : Arm) : (ev.grant c).guard.arm x =
    (((ev.guard.onVacate c.arm fun v => minusCells v c.effective).onArm c.arm fun a =>
      (a.signalled .grants 1).signalled .cellsExcluded c.excluded)).arm x := by
  rw [Event.grant_guard, Guard.signal_eq, Guard.signal_eq, Guard.onArm_onArm, Guard.arm_onArm_eq, Guard.arm_onArm_eq,
    Guard.grant_arm]

theorem Event.tried_arm (x : Arm) : (ev.tried c passes).guard.arm x =
    if passes then (ev.grant c).guard.arm x else ev.guard.arm x := by
  unfold Event.tried
  split
  · rfl
  · split
    · exact Guard.reserve_arm _ _ _
    · rfl

theorem Event.tried_counter (n : Nat) : ((ev.tried c passes).guard.arm c.arm).counters.selectable.get n =
    if passes then ((ev.guard.arm c.arm).counters.selectable.get n).atGrant c.excluded
    else (ev.guard.arm c.arm).counters.selectable.get n := by
  rw [Event.tried_arm]
  split
  · rw [Event.grant_arm, Guard.arm_onArm, ArmState.signalled_counter, ArmState.signalled_counter, Counter.atGrant_eq,
      Guard.onVacate, Guard.arm_onArm]
  · rfl

/-- A candidate taken leaves the slots and the next claim number alone. -/
theorem Event.tried_arm_kept (x : Arm) : ((ev.tried c passes).guard.arm x).nextNumber = (ev.guard.arm x).nextNumber ∧
    ∀ i, ((ev.tried c passes).guard.arm x).slot i = (ev.guard.arm x).slot i := by
  rw [Event.tried_arm]
  split
  · rw [Event.grant_arm]
    cases x <;> cases c.arm <;> exact ⟨rfl, fun i => by cases i <;> rfl⟩
  · exact ⟨rfl, fun _ => rfl⟩

end

/-! ## The evaluation of the one candidate -/

section
variable (g : Guard) (c : Claim) (passes : Bool) (d : Claim)

/-- What a candidate taken leaves of each claim. -/
theorem Guard.afterTry_kept : (g.afterTry c passes d).key = d.key ∧ (g.afterTry c passes d).origin = d.origin ∧
    ((g.afterTry c passes d).phase = .waiting → d.phase = .waiting) := by
  unfold Guard.afterTry
  split
  · unfold Claim.afterGrant
    by_cases h : d.key = c.key
    · rw [if_pos h]
      dsimp only
      split <;> exact ⟨rfl, rfl, fun w => by cases w⟩
    · rw [if_neg h]
      dsimp only
      split <;> exact ⟨rfl, rfl, id⟩
  · split
    · unfold Guard.reservation
      split <;> exact ⟨rfl, rfl, id⟩
    · exact ⟨rfl, rfl, id⟩

end

theorem Event.tried_slotHasClaim (ev : Event) (c : Claim) (passes : Bool) (x : Arm) (i : SlotIx) :
    (ev.tried c passes).guard.slotHasClaim x i = ev.guard.slotHasClaim x i := by
  unfold Guard.slotHasClaim
  rw [Event.tried_claims, List.any_map]
  refine congrArg (fun p => ev.guard.claims.any p) (funext fun d => ?_)
  obtain ⟨key, origin, -⟩ := ev.guard.afterTry_kept c passes d
  have arm : (ev.guard.afterTry c passes d).arm = d.arm := congrArg ClaimKey.arm key
  simp only [Function.comp, arm, origin]

theorem Event.evaluateIfCalled_sole {ev : Event} {old : List Claim} {c : Claim} (s : ev.guard.SoleWaits old c)
    (called : ev.evaluate = true) (mode : ev.guard.mode ≠ .init) (touched : ev.touched = [])
    (whole : ∀ d ∈ c.effective, (ev.guard.entryOf d).faultFence ≠ .poisoned)
    (good : ev.guard.goodFor (ev.guard.draws c.effective)) :
    ev.evaluateIfCalled =
      { (ev.unformed.drawn (ev.guard.draws c.effective)).tried c
          (c.effective.all fun d => (ev.guard.entryOf d).availableTo c.arm) with evaluate := false, reformed := [] } := by
  have first : ev.guard.nextCandidate [] = some c := by
    rw [Guard.nextCandidate_sole s.waitingClaims, if_neg (List.not_mem_nil)]
  have took := Event.takeCandidate_good (ev := ev.unformed) touched s.claim? whole good
  unfold Event.evaluateIfCalled Event.runEvaluation
  rw [if_pos called, if_neg mode, show 4000 = 3999 + 1 from rfl, Event.evaluateRounds_next first took,
    Event.evaluateRounds_over]
  · rfl
  · refine Guard.nextCandidate_taken fun d hd => ?_
    rw [Guard.waitingClaims, Event.tried_claims] at hd
    obtain ⟨hd, waiting⟩ := List.mem_filter.1 hd
    obtain ⟨e, he, rfl⟩ := List.mem_map.1 hd
    obtain ⟨key, -, waits⟩ := Guard.afterTry_kept _ c _ e
    have member : e ∈ ev.guard.waitingClaims := List.mem_filter.2 ⟨he, by
      simpa [Claim.isWaiting] using waits (by simpa [Claim.isWaiting] using waiting)⟩
    rw [s.waitingClaims, List.mem_singleton] at member
    rw [key, member]
    exact List.mem_singleton.2 rfl

/-! ## The end of the event -/

theorem mem_of_mem_keepLast {α : Type} [DecidableEq α] {a : α} {l : List α} (h : a ∈ keepLast l) : a ∈ l := by
  induction l with
  | nil => exact h
  | cons b l ih =>
    unfold keepLast at h
    split at h
    · exact List.mem_cons_of_mem _ (ih h)
    · exact (List.mem_cons.1 h).elim (fun e => List.mem_cons.2 (.inl e)) fun h => List.mem_cons_of_mem _ (ih h)

/-- No plan ends where each slot judged still has a claim, or is not FINISHING. -/
theorem Event.endPlans_kept {ev : Event}
    (h : ∀ j ∈ ev.judged, ∀ p, (ev.guard.arm j.1).slot j.2 = .finishing p → ev.guard.slotHasClaim j.1 j.2 = true) :
    ev.endPlans = { ev with judged := [] } := by
  have fold : ∀ js : List (Arm × SlotIx), (∀ j ∈ js, j ∈ ev.judged) →
      js.foldl (fun ev j => ev.endPlan j.1 j.2) { ev with judged := [] } = { ev with judged := [] } := by
    intro js
    induction js with
    | nil => exact fun _ => rfl
    | cons j js ih =>
      intro sub
      have one : Event.endPlan { ev with judged := [] } j.1 j.2 = { ev with judged := [] } := by
        unfold Event.endPlan
        split
        · rename_i p finishing
          exact if_pos (h j (sub j List.mem_cons_self) p finishing)
        · rfl
      rw [List.foldl_cons, one]
      exact ih fun i hi => sub i (List.mem_cons_of_mem _ hi)
  exact fold _ fun j hj => mem_of_mem_keepLast hj

/-- The end of an event after its evaluation, where no section and no plan comes to its end. -/
theorem Event.finish_undrained {ev e : Event} (evaluated : ev.evaluateIfCalled = e) (reached : e.reached = [])
    (h : ∀ j ∈ e.judged, ∀ p, (e.guard.arm j.1).slot j.2 = .finishing p → e.guard.slotHasClaim j.1 j.2 = true) :
    ev.finish = Event.endDraining { e.afterReply with judged := [] } := by
  unfold Event.finish
  rw [evaluated, Event.dealWithSections_none 8 (ev := e.afterReply) reached, Event.endPlans_kept (ev := e.afterReply) h]

/-- Nor any draining. -/
theorem Event.finish_kept {ev e : Event} (evaluated : ev.evaluateIfCalled = e) (reached : e.reached = [])
    (planLeft : e.planLeft = false)
    (h : ∀ j ∈ e.judged, ∀ p, (e.guard.arm j.1).slot j.2 = .finishing p → e.guard.slotHasClaim j.1 j.2 = true) :
    ev.finish = { e.afterReply with judged := [] } :=
  (Event.finish_undrained evaluated reached h).trans
    (Event.endDraining_kept (ev := { e.afterReply with judged := [] }) planLeft)

/-- What comes of an event that leaves one claim waiting. -/
structure Event.SoleOutcome (ev : Event) (old : List Claim) (c : Claim) (passes : Bool) : Prop where
  out : ev.finish.out = if passes then [.toArm c.arm (ev.guard.grantedNotice c)] else []
  counter : ∀ n, (ev.finish.guard.arm c.arm).counters.selectable.get n =
    if passes then ((ev.guard.arm c.arm).counters.selectable.get n).atGrant c.excluded
    else (ev.guard.arm c.arm).counters.selectable.get n
  granted : passes = true → ev.finish.guard.claims = old ++ [c.granted] ∧ ev.finish.guard.lastGranted = c.arm
  waits : passes = false → c.priority ≠ 7 → ev.finish.guard.claims = old ++ [c]
  reserves : passes = false → c.priority = 7 → ∃ d, ev.finish.guard.claims = old ++ [d] ∧ c.keeps d ∧ d.phase = .waiting ∧
    d.reserving = .senior ∧ ∀ e, e ∈ d.reserved ↔ e ∈ c.effective
  nextNumber : ∀ x, (ev.finish.guard.arm x).nextNumber = (ev.guard.arm x).nextNumber
  slot : ∀ x i, (ev.finish.guard.arm x).slot i = (ev.guard.arm x).slot i

theorem Event.soleOutcome {ev : Event} {old : List Claim} {c : Claim} (s : ev.guard.SoleWaits old c)
    (called : ev.evaluate = true) (mode : ev.guard.mode ≠ .init) (touched : ev.touched = []) (reached : ev.reached = [])
    (late : ev.late = []) (out : ev.out = []) (planLeft : ev.planLeft = false)
    (judged : ∀ j ∈ ev.judged, ev.guard.slotHasClaim j.1 j.2 = true)
    (whole : ∀ d ∈ c.effective, (ev.guard.entryOf d).faultFence ≠ .poisoned)
    (good : ev.guard.goodFor (ev.guard.draws c.effective)) :
    ev.SoleOutcome old c (c.effective.all fun d => (ev.guard.entryOf d).availableTo c.arm) := by
  have evaluated := Event.evaluateIfCalled_sole s called mode touched whole good
  generalize (c.effective.all fun d => (ev.guard.entryOf d).availableTo c.arm) = passes at evaluated ⊢
  generalize start : ev.unformed.drawn (ev.guard.draws c.effective) = before at evaluated
  have rest := before.tried_rest c passes
  have finish := Event.finish_kept evaluated
    (by rw [rest, ← start]; exact reached) (by rw [rest, ← start]; exact planLeft) (by
      intro j hj _ _
      refine (before.tried_slotHasClaim c passes j.1 j.2).trans ?_
      rw [rest, ← start] at hj
      rw [← start]
      exact judged j hj)
  have guard : ev.finish.guard = (before.tried c passes).guard := by rw [finish]; rfl
  have claims := before.tried_claims c passes
  have mapped : before.guard.SoleWaits old c := by rw [← start]; exact ⟨s.1, s.2, s.3, s.4, s.5, s.6⟩
  have arm : ∀ x, before.guard.arm x = ev.guard.arm x := fun x => by rw [← start]; exact Guard.drawn_arm _ _ x
  have noticed : before.guard.grantedNotice c = ev.guard.grantedNotice c := by
    unfold Guard.grantedNotice Guard.planOf
    rw [arm]
  have posted : ev.finish.out = (before.tried c passes).out := by
    have none : (before.tried c passes).late = [] := by rw [rest, ← start]; exact late
    rw [finish]
    exact (congrArg _ none).trans (List.append_nil _)
  exact {
    out := by
      rw [posted, Event.tried_out, noticed, ← start]
      exact (congrArg (· ++ _) out).trans (List.nil_append _)
    counter := fun n => by
      rw [guard, Event.tried_counter, arm]
    granted := by
      rintro rfl
      rw [guard, claims, Event.tried_lastGranted]
      exact ⟨mapped.granted_claims, rfl⟩
    waits := by
      rintro rfl low
      rw [guard, claims, show before.guard.afterTry c false = id from funext fun d => by simp [Guard.afterTry, low],
        List.map_id]
      exact mapped.claims
    reserves := by
      rintro rfl top
      refine ⟨{ c with reserving := .senior, reserved := unionCells [] (minusCells c.effective []) }, ?_, ?_⟩
      · rw [guard, claims, show before.guard.afterTry c false = before.guard.reservation c from
          funext fun d => by simp [Guard.afterTry, top]]
        exact mapped.reserving_claims
      · exact ⟨⟨rfl, rfl, rfl, rfl, rfl, rfl, id⟩, s.waiting, rfl, fun e => by simp [mem_unionCells, mem_minusCells]⟩
    nextNumber := fun x => by rw [guard, (before.tried_arm_kept c passes x).1, arm]
    slot := fun x i => by rw [guard, (before.tried_arm_kept c passes x).2, arm] }

end Sys2Proof.Machine

/-! # CLAIM_FOR and REQUEST with no waiting claim (O21, O31) -/

namespace Sys2Proof.Machine

/-! ## The claim made -/

theorem Guard.newClaim_number (g : Guard) (x : Arm) (o : Origin) (s : Shape) (cells : CellSet) (excluded priority : Nat) :
    (g.newClaim x o s cells excluded priority).number =
      if ∃ c ∈ g.claims, c.arm = x ∧ c.number = (g.arm x).nextNumber then (g.arm x).nextNumber + 1
      else (g.arm x).nextNumber := by
  unfold Guard.newClaim Guard.claimNumber
  simp

/-- A new claim waits alone beside held ones. -/
theorem Guard.addClaim_soleWaits {g : Guard} {x : Arm} (room : g.claimCount x < 2)
    (held : ∀ c ∈ g.claims, c.phase = .held ∧ c.reserving = .no) (o : Origin) (s : Shape) (cells : CellSet)
    (excluded priority : Nat) :
    (g.addClaim (g.newClaim x o s cells excluded priority)).SoleWaits g.claims
      (g.newClaim x o s cells excluded priority) where
  claims := rfl
  held := held
  fresh := fun _ hd e => Guard.claimNumber_fresh room (List.mem_map.2 ⟨_, hd, e⟩)
  waiting := rfl
  reserving := rfl
  reserved := rfl

/-- A claim is made on what its number and its timers are made of. -/
theorem Guard.newClaim_congr {g h : Guard} {x : Arm} (claims : h.claims = g.claims)
    (next : (h.arm x).nextNumber = (g.arm x).nextNumber) (now : h.now = g.now) (cfg : h.cfg = g.cfg) (o : Origin)
    (s : Shape) (cells : CellSet) (excluded priority : Nat) :
    h.newClaim x o s cells excluded priority = g.newClaim x o s cells excluded priority := by
  unfold Guard.newClaim Guard.claimNumber Guard.timerFor
  rw [claims, next, now, cfg]

theorem Guard.addClaim_arm (g : Guard) (c : Claim) (x : Arm) :
    (g.addClaim c).arm x = if c.arm = x then { g.arm x with nextNumber := c.number + 1 } else g.arm x := by
  unfold Guard.addClaim
  exact Guard.arm_onArm_eq g c.arm x _

theorem Guard.addClaim_entryOf (g : Guard) (c : Claim) : (g.addClaim c).entryOf = g.entryOf := by
  unfold Guard.entryOf
  rw [show (g.addClaim c).store = g.store from Guard.onArm_store _ _ _]

/-- Findings foretold good stay so for a guard with the same findings. -/
theorem Guard.goodFor_addClaim {g : Guard} {n : Nat} (h : g.goodFor n) (c : Claim) : (g.addClaim c).goodFor n := by
  obtain ⟨rest, e⟩ := h
  exact ⟨rest, (Guard.onArm_findings g c.arm _).trans e⟩

theorem Guard.addClaim_draws (g : Guard) (c : Claim) : (g.addClaim c).draws = g.draws := by
  unfold Guard.draws
  rw [show (g.addClaim c).poisoned = g.poisoned from Guard.onArm_poisoned _ _ _]

theorem Guard.addClaim_counters (g : Guard) (c : Claim) (x : Arm) :
    ((g.addClaim c).arm x).counters = (g.arm x).counters := by
  rw [Guard.addClaim_arm]
  split <;> rfl

/-- What is not excluded is not poisoned. -/
theorem Entry.whole_of_kept {e : Entry} (h : (!e.isExcluded) = true) : e.faultFence ≠ .poisoned := by
  intro p
  simp [Entry.isExcluded, p] at h

/-- The event in which a claim is made. -/
def Event.making (ev : Event) (c : Claim) : Event := (ev.onGuard fun g => g.addClaim c).callEvaluation true

/-- A new claim is the one candidate of the evaluation it calls for. -/
theorem Event.making_outcome {ev : Event} {x : Arm} {o : Origin} {s : Shape} {kept : CellSet} {excluded priority : Nat}
    {c : Claim} (made : c = ev.guard.newClaim x o s kept excluded priority) (room : ev.guard.claimCount x < 2)
    (held : ∀ c ∈ ev.guard.claims, c.phase = .held ∧ c.reserving = .no) (mode : ev.guard.mode ≠ .init)
    (touched : ev.touched = []) (reached : ev.reached = []) (late : ev.late = []) (out : ev.out = [])
    (planLeft : ev.planLeft = false) (judged : ∀ j ∈ ev.judged, c.fromSlot j.1 j.2 = true)
    (whole : ∀ d ∈ kept, (ev.guard.entryOf d).faultFence ≠ .poisoned) (good : ev.guard.goodFor (ev.guard.draws kept)) :
    (ev.making c).SoleOutcome ev.guard.claims c (kept.all fun d => (ev.guard.entryOf d).availableTo x) := by
  subst made
  have entries := ev.guard.addClaim_entryOf (ev.guard.newClaim x o s kept excluded priority)
  have outcome := Event.soleOutcome (ev := ev.making _) (Guard.addClaim_soleWaits room held o s kept excluded priority)
    (Bool.or_true _) (fun e => mode ((Guard.addClaim_mode _ _).symm.trans e)) touched reached late out planLeft
    (fun j hj => List.any_eq_true.2 ⟨_, List.mem_append_right _ (List.mem_singleton.2 rfl), judged j hj⟩)
    (fun d hd => (congrFun entries d).symm ▸ whole d hd)
    (by
      have := Guard.goodFor_addClaim good (ev.guard.newClaim x o s kept excluded priority)
      rwa [← Guard.addClaim_draws] at this)
  have same : (ev.making (ev.guard.newClaim x o s kept excluded priority)).guard.entryOf = ev.guard.entryOf := entries
  rw [same] at outcome
  exact outcome

/-- Every change of the table and of the two arms is left out of account. -/
theorem Guard.followedBy.withClaims {g h : Guard} (f : g.followedBy h) : { g with claims := h.claims }.followedBy h := by
  obtain ⟨cfg, now, powered, permit, cut, fences, leak, passes, mode, arms, -, retired⟩ := f
  exact ⟨cfg, now, powered, permit, cut, fences, leak, passes, mode, fun x => by cases x; exacts [arms .A, arms .B],
    fun d hd => ⟨d, hd, d.keeps_refl⟩, retired⟩

/-- Claims and findings apart, what follows from a guard follows from one that has all else in common with it. -/
theorem Guard.followedBy.withClaimsOf {g g' h : Guard} (f : g.followedBy h)
    (same : { g' with claims := g.claims, findings := g.findings } = g) : { g' with claims := h.claims }.followedBy h := by
  rw [← same] at f
  exact f.withClaims

theorem Guard.addClaim_drawn (g : Guard) {x : Arm} (n : Nat) {c : Claim} (arm : c.arm = x) :
    let h := (g.drawn n).addClaim c
    { g.onArm x (fun a => { a with nextNumber := c.number + 1 }) with claims := h.claims, findings := h.findings } = h := by
  subst arm
  unfold Guard.addClaim
  cases c.arm <;> rfl

theorem Guard.followedBy.withArms {g h : Guard} (f : g.followedBy h) : { g with a := h.a, b := h.b }.followedBy h := by
  obtain ⟨cfg, now, powered, permit, cut, fences, leak, passes, mode, -, claims, retired⟩ := f
  exact ⟨cfg, now, powered, permit, cut, fences, leak, passes, mode,
    fun x => by cases x; exacts [ArmState.keeps_refl _, ArmState.keeps_refl _], claims, retired⟩

/-! ## O21 -/

section
variable {g : Guard} {p : List Byte} {x : Arm} {shape : Shape} (arm : armOf (u8 p 0) = some x)
  (shaped : shapeAt g.cfg p 1 = some shape) (room : g.claimCount x < 2)
  (good : g.goodFor (g.draws (shape.cells g.cfg)))
include arm shaped room good

theorem Guard.serveClaimFor_empty
    (none : ((shape.cells g.cfg).filter fun c => !(g.entryOf c).isExcluded) = []) :
    g.serveClaimFor p = (g.event.drawn (g.draws (shape.cells g.cfg)), .refuse .empty) := by
  unfold Guard.serveClaimFor
  rw [arm, shaped]
  dsimp only
  rw [if_neg (by omega), Event.form_good (ev := g.event) _ rfl good]
  dsimp only
  rw [show (List.filter (fun c => !(g.event.guard.entryOf c).isExcluded) (shape.cells g.cfg)) = [] from none]
  rfl

theorem Guard.serveClaimFor_made {kept : CellSet}
    (keeps : ((shape.cells g.cfg).filter fun c => !(g.entryOf c).isExcluded) = kept) (some : kept ≠ []) :
    let c := g.newClaim x .supervisor shape kept ((shape.cells g.cfg).length - kept.length) 7
    g.serveClaimFor p = ((g.event.drawn (g.draws (shape.cells g.cfg))).making c,
      .ok ([c.number] ++ le16 kept.length ++ le16 c.excluded)) := by
  unfold Guard.serveClaimFor
  rw [arm, shaped]
  dsimp only
  rw [if_neg (by omega), Event.form_good (ev := g.event) _ rfl good]
  dsimp only
  rw [show (List.filter (fun c => !(g.event.guard.entryOf c).isExcluded) (shape.cells g.cfg)) = kept from keeps,
    if_neg (by simpa using some), Guard.newClaim_congr (g := g)]
  · rfl
  · rfl
  · exact congrArg ArmState.nextNumber (g.drawn_arm _ x)
  · rfl
  · rfl

end

/-- Settles O21: the new claim is the one candidate, and is granted or reserves. -/
theorem claimForMakesClaim : Obligations.ClaimForMakesClaim := by
  unfold Obligations.ClaimForMakesClaim
  intro s tag p x shape hs length arm shaped room held cells kept excluded claim free good
  have formed : s.guard.goodFor (s.guard.draws cells) := Guard.goodFor_mono good (Nat.le_add_right _ _)
  have serves := Guard.serve_claimFor s.link hs.1.2 (decide_eq_true length : supervisorLengthOk 0x09 p = true)
  refine ⟨Guard.newClaim_number _ _ _ _ _ _ _, fun none => ?_, fun some => ?_⟩
  · exact State.supervisor_quiet hs tag rfl (serves.trans (Guard.serveClaimFor_empty arm shaped room formed none))
  · have served := State.supervisor_served hs tag rfl
      (serves.trans (Guard.serveClaimFor_made arm shaped room formed rfl some))
    let drawn := s.guard.event.drawn (s.guard.draws cells)
    have outcome : (drawn.making claim).SoleOutcome s.guard.claims claim
        (kept.all fun c => (s.guard.entryOf c).availableTo x) :=
      Event.making_outcome (ev := drawn) (o := .supervisor) (s := shape) (excluded := excluded) (priority := 7)
        (Guard.newClaim_congr rfl (congrArg ArmState.nextNumber (s.guard.drawn_arm _ x)) rfl rfl _ _ _ _ _).symm
        room held hs.1.2 rfl rfl rfl rfl rfl (fun j hj => by cases hj)
        (fun d hd => Entry.whole_of_kept (List.mem_filter.1 hd).2) (Guard.goodFor_drawn good)
    have counters : ((drawn.making claim).guard.arm x).counters = (s.guard.arm x).counters :=
      (Guard.addClaim_counters drawn.guard claim x).trans (congrArg ArmState.counters (s.guard.drawn_arm _ x))
    refine ⟨_, served, congrArg _ outcome.out, fun n _ => ?_, outcome.granted, fun wait => outcome.reserves wait rfl, ?_, ?_⟩
    · refine (outcome.counter n).trans ?_
      rw [show claim.arm = x from rfl, counters]
      rfl
    · refine (outcome.nextNumber x).trans ?_
      rw [show (drawn.making claim).guard.arm x = _ from Guard.addClaim_arm drawn.guard claim x,
        if_pos (show claim.arm = x from rfl)]
    · exact (drawn.making claim).finish_change.followedBy.withClaimsOf (Guard.addClaim_drawn s.guard _ rfl)

end Sys2Proof.Machine

/-! # An entry issued (O31) -/

namespace Sys2Proof.Machine

/-! ## The issue (R108 to R110) -/

/-- A LOADED slot made ACTIVE. -/
def Slot.activated : Slot → Slot
  | .loaded p => .active p
  | s => s

theorem ArmState.setSlot_self (a : ArmState) (i : SlotIx) : a.setSlot i (a.slot i) = a := by cases i <;> rfl

theorem ArmState.activate_eq (a : ArmState) (i : SlotIx) : a.activate i = a.setSlot i (a.slot i).activated := by
  unfold ArmState.activate
  have same := a.setSlot_self i
  cases h : a.slot i with
  | loaded p => rfl
  | empty | active p | finishing p =>
    rw [h] at same
    exact same.symm

theorem SlotIx.other_ne (i : SlotIx) : i.other ≠ i := by cases i <;> decide

theorem ArmState.slot_setSlot_other (a : ArmState) (i : SlotIx) (s : Slot) : (a.setSlot i s).slot i.other = a.slot i.other := by
  rw [ArmState.slot_setSlot_eq, if_neg i.other_ne]

theorem sat16_eq (n : Nat) : sat16 n = min 65535 n := Nat.min_comm n 65535

theorem Plan.issue_eq (p : Plan) : p.issue =
    ({ p with
        issued := min 65535 (p.issued + 1)
        passesCompleted :=
          if decide (p.entries.length ≤ p.cursor + 1) then min 65535 (p.passesCompleted + 1) else p.passesCompleted
        cursor := if decide (p.entries.length ≤ p.cursor + 1) || min 65535 (p.issued + 1) = 65535 then 0 else p.cursor + 1 },
      decide (p.entries.length ≤ p.cursor + 1)) := by
  unfold Plan.issue
  rw [sat16_eq, sat16_eq]

/-- Whether an issue ends its plan. -/
def ArmState.issueEnds (a : ArmState) (i : SlotIx) (p : Plan) : Bool :=
  issuingEnds p.issue.1 p.issue.2 (a.slot i.other).isLoaded

/-- The slot of an issue and the other slot as the issue leaves them. -/
def ArmState.issued (a : ArmState) (i : SlotIx) (p : Plan) : ArmState :=
  if a.issueEnds i p then
    (a.setSlot i (.finishing { p.issue.1 with endReason := some .complete })).setSlot i.other (a.slot i.other).activated
  else a.setSlot i (.active p.issue.1)

theorem ArmState.finishSlot_eq (a : ArmState) (i : SlotIx) (p : Plan) (why : EndReason) : a.finishSlot i p why =
    (a.setSlot i (.finishing { p with endReason := some why })).setSlot i.other (a.slot i.other).activated := by
  unfold ArmState.finishSlot
  rw [ArmState.activate_eq, ArmState.slot_setSlot_other]

section
variable (a : ArmState) (i : SlotIx) (p : Plan)

theorem ArmState.issued_ending (h : a.issueEnds i p = true) : (a.issued i p).slot i =
      .finishing { p.issue.1 with endReason := some .complete } ∧
    (a.issued i p).slot i.other = (a.slot i.other).activated := by
  unfold ArmState.issued
  rw [if_pos h]
  refine ⟨?_, ArmState.slot_setSlot _ _ _⟩
  rw [ArmState.slot_setSlot_eq, if_neg i.other_ne.symm, ArmState.slot_setSlot]

theorem ArmState.issued_going (h : a.issueEnds i p = false) :
    (a.issued i p).slot i = .active p.issue.1 ∧ (a.issued i p).slot i.other = a.slot i.other := by
  unfold ArmState.issued
  rw [if_neg (by simp [h])]
  exact ⟨ArmState.slot_setSlot _ _ _, ArmState.slot_setSlot_other _ _ _⟩

/-- The issued plan stays in its slot. -/
theorem ArmState.issued_plan : ∃ q, ((a.issued i p).slot i).plan? = some q ∧ q.planId = p.planId ∧ q.entries = p.entries := by
  cases h : a.issueEnds i p with
  | true => exact ⟨_, congrArg Slot.plan? (a.issued_ending i p h).1, rfl, rfl⟩
  | false => exact ⟨_, congrArg Slot.plan? (a.issued_going i p h).1, rfl, rfl⟩

theorem ArmState.issued_rest : (a.issued i p).nextNumber = a.nextNumber ∧ (a.issued i p).counters = a.counters := by
  unfold ArmState.issued
  split <;> cases i <;> exact ⟨rfl, rfl⟩

end

theorem Event.issue_eq (ev : Event) (x : Arm) (i : SlotIx) (p : Plan) : ev.issue x i p =
    { ev with
      guard := ev.guard.onArm x fun a => a.issued i p
      judged := if (ev.guard.arm x).issueEnds i p then (x, i) :: ev.judged else ev.judged } := by
  unfold Event.issue
  dsimp only
  have guard : (ev.guard.onArm x fun a => if (ev.guard.arm x).issueEnds i p then a.finishSlot i p.issue.1 .complete
      else a.setSlot i (.active p.issue.1)) = ev.guard.onArm x fun a => a.issued i p := by
    refine Guard.onArm_congr ?_
    rw [ArmState.finishSlot_eq]
    rfl
  cases ends : (ev.guard.arm x).issueEnds i p with
  | true =>
    rw [ends] at guard
    rw [← guard, if_pos (show issuingEnds _ _ _ = true from ends)]
    rw [show issuingEnds p.issue.1 p.issue.2 ((ev.guard.arm x).slot i.other).isLoaded = true from ends]
    rfl
  | false =>
    rw [ends] at guard
    rw [← guard, show issuingEnds p.issue.1 p.issue.2 ((ev.guard.arm x).slot i.other).isLoaded = false from ends]
    rfl

/-! ## The service of a REQUEST -/

section
variable {s : State} {x : Arm} {tag : Byte} {i : SlotIx} {q : Plan} (serves : s.servesArm x)
include serves

theorem State.request_served : exec (.request x tag []) s = .next
    ((s.armReplied x 0x21#8 tag (s.guard.serveRequest x).2).conclude (s.guard.serveRequest x).1) := by
  have service : s.guard.serveArm x 0x21#8 [] = s.guard.serveRequest x := by
    change (if s.guard.mode = .init then _ else if _ then _ else _) = _
    rw [if_neg serves.1.2, if_neg (by simp)]
  have arrival := State.armArrival_served serves.2 0x21#8 tag [] rfl
  rw [service] at arrival
  exact (State.whenPowered_on serves.1.1 fun s => s.armArrival x ⟨0x21#8, tag, []⟩).trans (congrArg Host.Outcome.next arrival)

end

section
variable {g : Guard} {x : Arm} {i : SlotIx} {q : Plan} {e : PlanEntry} (mode : g.mode = .guarding)
  (moving : (g.arm x).unit.level.atLeastHold = false) (active : (g.arm x).activePlan = some (i, q))
  (room : g.claimCount x < 2) (entry : q.entries[q.cursor]? = some e)

include mode moving active room entry in
theorem Guard.serveRequest_entry : g.serveRequest x = g.requestEntry x i q e := by
  unfold Guard.serveRequest
  rw [if_neg (not_not.2 mode), if_neg (by simp [moving]), active]
  dsimp only
  rw [if_neg (by omega), entry]

variable (good : g.goodFor (g.draws (e.shape.cells g.cfg)))
include active good

/-- The event of a REQUEST whose entry is issued, its reads made. -/
def Guard.issuing (g : Guard) (x : Arm) (i : SlotIx) (q : Plan) (n : Nat) : Event := (g.event.drawn n).issue x i q

theorem Guard.requestEntry_eq {kept : CellSet}
    (keeps : ((e.shape.cells g.cfg).filter fun c => !(g.entryOf c).isExcluded) = kept) :
    g.requestEntry x i q e =
      let ev := g.issuing x i q (g.draws (e.shape.cells g.cfg))
      let c := ev.guard.newClaim x (.plan i q.cursor) e.shape kept ((e.shape.cells g.cfg).length - kept.length) e.priority
      if kept.isEmpty then (ev.tally x i .missed, .refuseWith .empty q.cursor)
      else (ev.making c, .ok [c.number, byte q.cursor]) := by
  have slot : (((g.event.drawn (g.draws (e.shape.cells g.cfg))).guard.arm x).slot i).plan? = some q := by
    rw [show (g.event.drawn (g.draws (e.shape.cells g.cfg))).guard.arm x = g.arm x from Guard.drawn_arm _ _ x,
      ArmState.activePlan_some active]
    rfl
  unfold Guard.requestEntry
  dsimp only
  rw [Event.form_good (ev := g.event) _ rfl good]
  dsimp only
  rw [show g.event.guard.draws = g.draws from rfl, slot, show (List.filter (fun c => !(g.event.guard.entryOf c).isExcluded) (e.shape.cells g.cfg)) = kept from keeps]
  rfl

end

/-! ## O31 -/

section
variable (g : Guard) (x : Arm) (i : SlotIx) (q : Plan) (n : Nat)

theorem Guard.issuing_guard : (g.issuing x i q n).guard = (g.drawn n).onArm x fun a => a.issued i q := by
  rw [Guard.issuing, Event.issue_eq]
  rfl

theorem Guard.issuing_arm : (g.issuing x i q n).guard.arm x = (g.arm x).issued i q := by
  rw [Guard.issuing_guard, Guard.arm_onArm, Guard.drawn_arm]

theorem Guard.issuing_judged :
    (g.issuing x i q n).judged = if (g.arm x).issueEnds i q then [(x, i)] else [] := by
  rw [Guard.issuing, Event.issue_eq]
  exact congrArg (fun a : ArmState => if a.issueEnds i q then [(x, i)] else []) (Guard.drawn_arm g n x)

/-- What an issue leaves of the event, but for its guard and the slots to be judged. -/
theorem Guard.issuing_rest : g.issuing x i q n =
    { g.event with guard := (g.issuing x i q n).guard, judged := (g.issuing x i q n).judged } := by
  rw [Guard.issuing, Event.issue_eq]
  rfl

theorem Guard.issuing_entryOf : (g.issuing x i q n).guard.entryOf = g.entryOf := by
  unfold Guard.entryOf
  rw [Guard.issuing_guard, Guard.onArm_store]
  rfl

theorem Guard.issuing_draws : (g.issuing x i q n).guard.draws = g.draws := by
  unfold Guard.draws
  rw [Guard.issuing_guard, Guard.onArm_poisoned]
  rfl

theorem Guard.issuing_claims : (g.issuing x i q n).guard.claims = g.claims := by
  rw [Guard.issuing_guard, Guard.onArm_claims]
  rfl

theorem Guard.issuing_newClaim (o : Origin) (s : Shape) (cells : CellSet) (excluded priority : Nat) :
    (g.issuing x i q n).guard.newClaim x o s cells excluded priority = g.newClaim x o s cells excluded priority := by
  refine Guard.newClaim_congr (g.issuing_claims x i q n) ?_ ?_ ?_ o s cells excluded priority
  · rw [Guard.issuing_arm, (ArmState.issued_rest _ _ _).1]
  · rw [Guard.issuing_guard, Guard.onArm_now]
    rfl
  · rw [Guard.issuing_guard, Guard.onArm_cfg]
    rfl

end

section
variable {g : Guard} {x : Arm} {i : SlotIx} {q : Plan} {e : PlanEntry}

/-- The claim of an entry is the one candidate of the evaluation that its making calls for. -/
theorem Guard.issuing_outcome (mode : g.mode ≠ .init) (room : g.claimCount x < 2)
    (held : ∀ c ∈ g.claims, c.phase = .held ∧ c.reserving = .no) {n m : Nat} {s : Shape} {kept : CellSet}
    {excluded priority : Nat} (whole : ∀ d ∈ kept, (g.entryOf d).faultFence ≠ .poisoned)
    (good : g.goodFor (n + g.draws kept)) :
    let c := g.newClaim x (.plan i m) s kept excluded priority
    ((g.issuing x i q n).making c).SoleOutcome g.claims c (kept.all fun d => (g.entryOf d).availableTo x) := by
  intro c
  have rest := g.issuing_rest x i q n
  have entries := g.issuing_entryOf x i q n
  have claims := g.issuing_claims x i q n
  have outcome := Event.making_outcome (ev := g.issuing x i q n) (g.issuing_newClaim x i q n (.plan i m) s kept excluded priority).symm
    (by rw [Guard.claimCount, claims]; exact room) (by rw [claims]; exact held)
    (by rw [Guard.issuing_guard, Guard.onArm_mode]; exact mode) (by rw [rest]; rfl) (by rw [rest]; rfl) (by rw [rest]; rfl)
    (by rw [rest]; rfl) (by rw [rest]; rfl)
    (by
      intro j hj
      rw [Guard.issuing_judged] at hj
      split at hj
      · rw [List.mem_singleton.1 hj]
        simp [Claim.fromSlot, Guard.newClaim]
      · cases hj)
    (by rw [entries]; exact whole)
    (by
      rw [Guard.issuing_draws]
      obtain ⟨more, e⟩ := Guard.goodFor_drawn good
      exact ⟨more, by rw [Guard.issuing_guard, Guard.onArm_findings, e]⟩)
  rw [claims, entries] at outcome
  exact outcome

/-- GRANTED of an entry's claim carries its plan's identity and its pick point. -/
theorem Guard.issuing_notice {n : Nat} (entry : q.entries[q.cursor]? = some e) (s : Shape) (kept : CellSet)
    (excluded priority : Nat) :
    let c := g.newClaim x (.plan i q.cursor) s kept excluded priority
    ((g.issuing x i q n).making c).guard.grantedNotice c =
      .granted c.number (.plan i q.cursor) q.planId e.pick kept.length excluded := by
  intro c
  obtain ⟨r, plan, planId, entries⟩ := (g.arm x).issued_plan i q
  have slot : ((((g.issuing x i q n).making c).guard.arm x).slot i).plan? = some r := by
    rw [show ((g.issuing x i q n).making c).guard = (g.issuing x i q n).guard.addClaim c from rfl, Guard.addClaim_slot,
      Guard.issuing_arm, plan]
  have carried : ((g.issuing x i q n).making c).guard.planOf c = (q.planId, e.pick) := by
    unfold Guard.planOf
    rw [show c.origin = .plan i q.cursor from rfl, show c.arm = x from rfl]
    dsimp only
    rw [slot]
    dsimp only
    rw [planId, entries, entry]
    rfl
  unfold Guard.grantedNotice
  rw [carried]
  rfl

end

/-- Arms, claims and findings apart, what follows from a guard follows from one that has all else in common with it. -/
theorem Guard.followedBy.of_same {g g' h : Guard} (f : g.followedBy h)
    (same : { g' with a := g.a, b := g.b, claims := g.claims, findings := g.findings } = g) :
    { g' with a := h.a, b := h.b, claims := h.claims }.followedBy h := by
  rw [← same] at f
  exact f.withClaims.withArms

theorem Guard.addClaim_rest (g : Guard) {x : Arm} (n : Nat) (f : ArmState → ArmState) {c : Claim} (arm : c.arm = x) :
    let h := ((g.drawn n).onArm x f).addClaim c
    { g with a := h.a, b := h.b, claims := h.claims, findings := h.findings } = h := by
  subst arm
  unfold Guard.addClaim
  cases c.arm <;> rfl

/-- Settles O31: the entry is issued, and its claim is the one candidate. -/
theorem requestMakesClaim : Obligations.RequestMakesClaim := by
  unfold Obligations.RequestMakesClaim
  intro s x tag i q e serves mode moving active room held entry cells kept excluded claim free other issued last passes ends r
    some good
  refine ⟨Guard.newClaim_number _ _ _ _ _ _ _, ?_⟩
  have served := State.request_served (tag := tag) serves
  have formed : s.guard.goodFor (s.guard.draws cells) := Guard.goodFor_mono good (Nat.le_add_right _ _)
  rw [Guard.serveRequest_entry mode moving active room entry, Guard.requestEntry_eq active formed rfl] at served
  dsimp only at served
  rw [if_neg (mt List.isEmpty_iff.1 some), Guard.issuing_newClaim] at served
  let before := s.guard.issuing x i q (s.guard.draws cells)
  have outcome : (before.making claim).SoleOutcome s.guard.claims claim
      (kept.all fun c => (s.guard.entryOf c).availableTo x) :=
    Guard.issuing_outcome serves.1.2 room held (fun d hd => Entry.whole_of_kept (List.mem_filter.1 hd).2) good
  have notice : (before.making claim).guard.grantedNotice claim =
      .granted claim.number (.plan i q.cursor) q.planId e.pick kept.length excluded :=
    Guard.issuing_notice entry _ _ _ _
  have arm : (before.making claim).guard.arm x =
      { (s.guard.arm x).issued i q with nextNumber := claim.number + 1 } := by
    refine (Guard.addClaim_arm before.guard claim x).trans ?_
    rw [if_pos (show claim.arm = x from rfl), Guard.issuing_arm]
  have counters : ((before.making claim).guard.arm x).counters = (s.guard.arm x).counters := by
    rw [arm]
    exact (ArmState.issued_rest _ _ _).2
  have slot : ∀ j, ((before.making claim).finish.guard.arm x).slot j = ((s.guard.arm x).issued i q).slot j := by
    intro j
    rw [outcome.slot, arm]
    cases j <;> rfl
  have issue : q.issue = (r, last) := q.issue_eq
  have ending : (s.guard.arm x).issueEnds i q = ends := by
    unfold ArmState.issueEnds
    rw [issue]
    rfl
  refine ⟨_, served, ?_, fun n _ => ?_, outcome.granted, fun wait low => outcome.waits wait (Nat.ne_of_lt low), outcome.reserves, ?_, ?_, ?_, ?_, ?_⟩
  · refine congrArg _ (outcome.out.trans ?_)
    rw [notice]
    rfl
  · refine (outcome.counter n).trans ?_
    rw [show claim.arm = x from rfl, counters]
    rfl
  · refine (outcome.nextNumber x).trans ?_
    rw [arm]
  · intro goes
    obtain ⟨own, beside⟩ := (s.guard.arm x).issued_going i q (ending.trans goes)
    rw [issue] at own
    exact ⟨(slot i).trans own, (slot i.other).trans beside⟩
  · intro ends
    obtain ⟨own, beside⟩ := (s.guard.arm x).issued_ending i q (ending.trans ends)
    rw [issue] at own
    exact ⟨(slot i).trans own, (slot i.other).trans beside⟩
  · have keeps := (before.making claim).finish_change.armKeeps x.other
    have same : (before.making claim).guard.arm x.other = s.guard.arm x.other := by
      refine (Guard.addClaim_arm before.guard claim x.other).trans ?_
      rw [if_neg (show claim.arm ≠ x.other from (Arm.other_ne x).symm), Guard.issuing_guard, Guard.arm_onArm_other, Guard.drawn_arm]
    rw [same] at keeps
    exact keeps
  · have made : (before.making claim).guard =
        ((s.guard.drawn (s.guard.draws cells)).onArm x fun a => a.issued i q).addClaim claim :=
      congrArg (fun g : Guard => g.addClaim claim) (s.guard.issuing_guard x i q _)
    refine (before.making claim).finish_change.followedBy.of_same ?_
    rw [made]
    exact Guard.addClaim_rest _ _ _ rfl

end Sys2Proof.Machine

/-! # REQUEST refused (O32) -/

namespace Sys2Proof.Machine

/-! ## The four conditions before the entry -/

/-- An arm's REQUEST that is answered without a change. -/
theorem State.request_answered {s : State} {x : Arm} (serves : s.servesArm x) (tag : Byte) {r : Reply}
    (e : s.guard.serveRequest x = s.guard.answer r) :
    exec (.request x tag []) s = .next (s.armReplied x 0x21#8 tag r) := by
  rw [State.request_served serves, e]
  exact congrArg _ (State.conclude_event _ _)

section
variable {g : Guard} {x : Arm}

theorem Guard.serveRequest_wrongMode (h : g.mode ≠ .guarding) : g.serveRequest x = g.answer (.refuse .wrongMode) := if_pos h

variable (mode : g.mode = .guarding)
include mode

theorem Guard.serveRequest_stopped (h : (g.arm x).unit.level.atLeastHold = true) :
    g.serveRequest x = g.answer (.refuse .stopped) := by
  unfold Guard.serveRequest
  rw [if_neg (not_not.2 mode), if_pos h]

variable (moving : (g.arm x).unit.level.atLeastHold = false)
include moving

theorem Guard.serveRequest_noPlan (h : (g.arm x).activePlan = none) : g.serveRequest x = g.answer (.refuse .noPlan) := by
  unfold Guard.serveRequest
  rw [if_neg (not_not.2 mode), if_neg (by simp [moving]), h]

theorem Guard.serveRequest_noRoom {i : SlotIx} {q : Plan} (h : (g.arm x).activePlan = some (i, q))
    (full : 2 ≤ g.claimCount x) : g.serveRequest x = g.answer (.refuse .noRoom) := by
  unfold Guard.serveRequest
  rw [if_neg (not_not.2 mode), if_neg (by simp [moving]), h]
  exact if_pos full

end

/-! ## An entry issued and missed -/

theorem Event.tally_eq (ev : Event) (x : Arm) (i : SlotIx) (o : EntryOutcome) : ev.tally x i o =
    ev.onGuard fun g => (g.onArm x fun a => a.onPlan i (Plan.tally o)).onArm x fun a => a.signalled o.event 1 := rfl

section
variable (a : ArmState) (i : SlotIx) (s t u : Slot)

theorem ArmState.onPlan_setSlot (f : Plan → Plan) : (a.setSlot i s).onPlan i f = a.setSlot i (s.onPlan f) := by
  cases i <;> rfl

theorem ArmState.setSlot_both : ((a.setSlot i s).setSlot i.other t).setSlot i u = (a.setSlot i u).setSlot i.other t := by
  cases i <;> rfl

theorem ArmState.onPlan_setSlot_both (f : Plan → Plan) :
    ((a.setSlot i s).setSlot i.other t).onPlan i f = (a.setSlot i (s.onPlan f)).setSlot i.other t := by
  cases i <;> rfl

theorem ArmState.signalled_setSlot (e : CountEvent) (n : Nat) :
    (a.signalled e n).setSlot i s = (a.setSlot i s).signalled e n := by
  cases i <;> rfl

end

/-- An arm whose entry was issued and missed. -/
def ArmState.missing (a : ArmState) (i : SlotIx) (q : Plan) : ArmState := (a.issued i q).onPlan i (Plan.tally .missed)

section
variable (a : ArmState) (i : SlotIx) (q : Plan)

theorem ArmState.missing_going (h : a.issueEnds i q = false) :
    a.missing i q = a.setSlot i (.active (q.issue.1.tally .missed)) := by
  unfold ArmState.missing ArmState.issued
  rw [if_neg (by simp [h]), ArmState.onPlan_setSlot]
  rfl

theorem ArmState.missing_ending (h : a.issueEnds i q = true) : a.missing i q =
    (a.setSlot i (.finishing { q.issue.1.tally .missed with endReason := some .complete })).setSlot i.other
      (a.slot i.other).activated := by
  unfold ArmState.missing ArmState.issued
  rw [if_pos h, ArmState.onPlan_setSlot_both]
  rfl

end

/-- The event of a REQUEST whose entry is issued and missed. -/
def Guard.issuedMissed (g : Guard) (x : Arm) (i : SlotIx) (q : Plan) (n : Nat) : Event :=
  (g.issuing x i q n).tally x i .missed

/-- The guard with an arm changed, and a miss counted. -/
def Guard.missCounted (g : Guard) (x : Arm) (f : ArmState → ArmState) : Guard :=
  (g.onArm x f).onArm x fun a => a.signalled .misses 1

theorem Guard.missCounted_congr {g : Guard} {x : Arm} {f f' : ArmState → ArmState} (h : f (g.arm x) = f' (g.arm x)) :
    g.missCounted x f = g.missCounted x f' := by
  unfold Guard.missCounted
  rw [Guard.onArm_congr h]

section
variable (g : Guard) (x : Arm) (i : SlotIx) (q : Plan) (n : Nat)

theorem Guard.issuedMissed_guard :
    (g.issuedMissed x i q n).guard = (g.drawn n).missCounted x fun a => a.missing i q := by
  rw [Guard.issuedMissed, Event.tally_eq, Event.onGuard_guard, Guard.issuing_guard]
  exact congrArg (fun h : Guard => h.onArm x fun a => a.signalled .misses 1) (Guard.onArm_onArm _ _ _ _)

theorem Guard.issuedMissed_rest : g.issuedMissed x i q n =
    { g.event with
      guard := (g.issuedMissed x i q n).guard
      judged := if (g.arm x).issueEnds i q then [(x, i)] else [] } := by
  rw [← Guard.issuing_judged g x i q n]
  conv_lhs => rw [Guard.issuedMissed, Event.tally_eq, Guard.issuing_rest]
  rfl

theorem Guard.issuedMissed_evaluated : (g.issuedMissed x i q n).evaluateIfCalled = g.issuedMissed x i q n := by
  rw [Event.evaluateIfCalled, if_neg]
  rw [Guard.issuedMissed_rest]
  exact Bool.false_ne_true

omit g q n in
theorem Event.endPlan_finishing {ev : Event} {p : Plan} (h : (ev.guard.arm x).slot i = .finishing p) : ev.endPlan x i =
    if ev.guard.slotHasClaim x i then ev
    else { ev with
      guard := ev.guard.onArm x fun a => a.setSlot i .empty
      out := ev.out ++ planEnds (p.ended x i) } := by
  unfold Event.endPlan
  rw [h]
  dsimp only
  split
  · rfl
  · unfold Event.onGuard Event.post planEnds
    dsimp only
    rw [List.append_assoc]
    rfl

/-- A plan that goes on takes nothing else with it. -/
theorem Guard.issuedMissed_going (h : (g.arm x).issueEnds i q = false) :
    (g.issuedMissed x i q n).finish.guard =
      (g.drawn n).missCounted x (fun a => a.setSlot i (.active (q.issue.1.tally .missed))) ∧
    (g.issuedMissed x i q n).finish.out = [] := by
  have rest := g.issuedMissed_rest x i q n
  rw [h] at rest
  rw [Event.finish_kept (g.issuedMissed_evaluated x i q n) (by rw [rest]; rfl) (by rw [rest]; rfl)
    (by rw [rest]; exact fun j hj => by cases hj)]
  refine ⟨(g.issuedMissed_guard x i q n).trans (Guard.missCounted_congr ?_), by rw [rest]; rfl⟩
  rw [Guard.drawn_arm]
  exact ArmState.missing_going _ i q h

/-- A plan that ends is judged, and ends with its last claim. -/
theorem Guard.issuedMissed_ending (h : (g.arm x).issueEnds i q = true) :
    let p := { q.issue.1.tally .missed with endReason := some .complete }
    (g.issuedMissed x i q n).finish.guard = (g.drawn n).missCounted x (fun a =>
      (a.setSlot i (if g.slotHasClaim x i then .finishing p else .empty)).setSlot i.other (a.slot i.other).activated) ∧
    (g.issuedMissed x i q n).finish.out = if g.slotHasClaim x i then [] else planEnds (p.ended x i) := by
  intro p
  have rest := g.issuedMissed_rest x i q n
  rw [h, if_pos rfl] at rest
  have guard : (g.issuedMissed x i q n).guard = (g.drawn n).missCounted x fun a =>
      (a.setSlot i (.finishing p)).setSlot i.other (a.slot i.other).activated := by
    refine (g.issuedMissed_guard x i q n).trans (Guard.missCounted_congr ?_)
    rw [Guard.drawn_arm]
    exact ArmState.missing_ending _ i q h
  have arm : (g.issuedMissed x i q n).guard.arm x =
      (((g.arm x).setSlot i (.finishing p)).setSlot i.other ((g.arm x).slot i.other).activated).signalled .misses 1 := by
    rw [guard, Guard.missCounted, Guard.arm_onArm, Guard.arm_onArm, Guard.drawn_arm]
  have slot : ((g.issuedMissed x i q n).guard.arm x).slot i = .finishing p := by
    rw [arm]
    cases i <;> rfl
  have claims : (g.issuedMissed x i q n).guard.slotHasClaim x i = g.slotHasClaim x i := by
    rw [guard]
    unfold Guard.slotHasClaim Guard.missCounted
    rw [Guard.onArm_claims, Guard.onArm_claims]
    rfl
  have finish : (g.issuedMissed x i q n).finish =
      Event.endPlan { (g.issuedMissed x i q n).afterReply with judged := [] } x i := by
    unfold Event.finish
    rw [Guard.issuedMissed_evaluated, Event.dealWithSections_none 8 (by rw [rest]; rfl)]
    have one : (g.issuedMissed x i q n).afterReply.endPlans =
        Event.endPlan { (g.issuedMissed x i q n).afterReply with judged := [] } x i := by
      unfold Event.endPlans
      rw [show (g.issuedMissed x i q n).afterReply.judged = [(x, i)] by rw [rest]; rfl]
      rfl
    rw [one, Event.endDraining_kept]
    rw [Event.endPlan_finishing x i (ev := { (g.issuedMissed x i q n).afterReply with judged := [] }) slot]
    split <;> rw [rest] <;> rfl
  rw [finish, Event.endPlan_finishing x i (ev := { (g.issuedMissed x i q n).afterReply with judged := [] }) slot,
    show Guard.slotHasClaim (g.issuedMissed x i q n).afterReply.guard x i = g.slotHasClaim x i from claims]
  have silent : (g.issuedMissed x i q n).afterReply.out = [] := by rw [rest]; rfl
  cases held : g.slotHasClaim x i with
  | true => exact ⟨guard, silent⟩
  | false =>
    rw [if_neg Bool.false_ne_true, if_neg Bool.false_ne_true, if_neg Bool.false_ne_true]
    have emptied : ((g.issuedMissed x i q n).guard.onArm x fun a => a.setSlot i .empty) =
        (g.drawn n).missCounted x fun a => (a.setSlot i .empty).setSlot i.other (a.slot i.other).activated := by
      rw [guard, Guard.missCounted, Guard.missCounted, Guard.onArm_onArm, Guard.onArm_onArm, Guard.onArm_onArm]
      refine Guard.onArm_congr ?_
      rw [ArmState.signalled_setSlot, ArmState.setSlot_both]
    exact ⟨emptied, congrArg (· ++ _) silent⟩

end

/-- The issued plan of an entry that was missed. -/
theorem Plan.issue_missed (q : Plan) : q.issue.1.tally .missed = { q with
    issued := min 65535 (q.issued + 1)
    passesCompleted :=
      if decide (q.entries.length ≤ q.cursor + 1) then min 65535 (q.passesCompleted + 1) else q.passesCompleted
    cursor := q.issue.1.cursor
    missed := min 65535 (q.missed + 1) } := by
  rw [Plan.issue_eq, ← sat16_eq (q.missed + 1)]
  rfl

theorem Plan.issue_cursor (q : Plan) : q.issue.1.cursor =
    if decide (q.entries.length ≤ q.cursor + 1) || min 65535 (q.issued + 1) = 65535 then 0 else q.cursor + 1 := by
  rw [Plan.issue_eq]

theorem ArmState.issueEnds_eq (a : ArmState) (i : SlotIx) (q : Plan) : a.issueEnds i q =
    (decide (min 65535 (q.issued + 1) = 65535) || (decide (q.entries.length ≤ q.cursor + 1) &&
      if q.passes = 0 then (a.slot i.other).isLoaded
      else decide (q.passes ≤ if decide (q.entries.length ≤ q.cursor + 1) then min 65535 (q.passesCompleted + 1)
        else q.passesCompleted))) := by
  unfold ArmState.issueEnds
  rw [Plan.issue_eq]
  rfl

theorem State.conclude_eq {s : State} {ev : Event} {g : Guard} {out : List Posted} (guard : ev.finish.guard = g)
    (posted : ev.finish.out = out) : s.conclude ev = { s with guard := g, link := s.link.deliver out } := by
  unfold State.conclude
  rw [← guard, ← posted]

/-- Settles O32: the tests in their order, then an entry issued and missed. -/
theorem requestIsRefused : Obligations.RequestIsRefused := by
  unfold Obligations.RequestIsRefused
  intro s x tag serves result a
  refine ⟨fun mode => State.request_answered serves tag (Guard.serveRequest_wrongMode mode),
    fun mode stopped => State.request_answered serves tag (Guard.serveRequest_stopped mode stopped),
    fun mode moving => ⟨fun none => State.request_answered serves tag (Guard.serveRequest_noPlan mode moving none),
      fun i q active => ⟨fun full => State.request_answered serves tag (Guard.serveRequest_noRoom mode moving active full),
        fun e room entry => ?_⟩⟩⟩
  intro cells all good replied counts issued last passes moved stays finished ends
  have kept : (cells.filter fun c => !(s.guard.entryOf c).isExcluded) = [] :=
    List.filter_eq_nil_iff.2 fun c hc => by simp [all c hc]
  have served := State.request_served (tag := tag) serves
  rw [Guard.serveRequest_entry mode moving active room entry, Guard.requestEntry_eq active good kept] at served
  dsimp only at served
  rw [if_pos List.isEmpty_nil] at served
  have missed : ∀ c, q.issue.1.cursor = c → q.issue.1.tally .missed = moved c := by
    rintro c rfl
    exact q.issue_missed
  have goes : ∀ c, a.issueEnds i q = false → q.issue.1.cursor = c → stays c := by
    intro c going cursor
    obtain ⟨guard, out⟩ := s.guard.issuedMissed_going x i q (s.guard.draws cells) going
    rw [missed c cursor] at guard
    refine served.trans (congrArg Host.Outcome.next ?_)
    exact State.conclude_eq guard out
  have comes : a.issueEnds i q = true → q.issue.1.cursor = 0 → ends := by
    intro ending cursor
    obtain ⟨guard, out⟩ := s.guard.issuedMissed_ending x i q (s.guard.draws cells) ending
    rw [missed 0 cursor] at guard out
    refine served.trans (congrArg Host.Outcome.next ?_)
    exact State.conclude_eq guard out
  have issueEnds := a.issueEnds_eq i q
  have cursor := q.issue_cursor
  refine ⟨fun full => ?_, fun below => ⟨fun middle => ?_, fun atEnd => ?_⟩⟩
  · have issued : min 65535 (q.issued + 1) = 65535 := by omega
    exact comes (by simp [issueEnds, issued]) (by simp [cursor, issued])
  · have issued : min 65535 (q.issued + 1) ≠ 65535 := by omega
    have last : ¬q.entries.length ≤ q.cursor + 1 := by omega
    exact goes _ (by simp [issueEnds, issued, last]) (by simp [cursor, issued, last])
  · have issued : min 65535 (q.issued + 1) ≠ 65535 := by omega
    have atStart : q.issue.1.cursor = 0 := by simp [cursor, atEnd]
    have passed : passes = min 65535 (q.passesCompleted + 1) := if_pos (decide_eq_true atEnd)
    refine ⟨fun finite more => goes 0 ?_ atStart, fun finite done => comes ?_ atStart, fun endless loaded => comes ?_ atStart,
      fun endless loaded => goes 0 ?_ atStart⟩
    · have short : ¬q.passes ≤ min 65535 (q.passesCompleted + 1) := by omega
      rw [issueEnds, decide_eq_true atEnd, if_neg finite, if_pos rfl, decide_eq_false issued, decide_eq_false short]
      rfl
    · have done : q.passes ≤ min 65535 (q.passesCompleted + 1) := by omega
      rw [issueEnds, decide_eq_true atEnd, if_neg finite, if_pos rfl, decide_eq_true done]
      exact Bool.or_true _
    · simp [issueEnds, atEnd, endless, loaded]
    · simp [issueEnds, issued, atEnd, endless, loaded]

end Sys2Proof.Machine

/-! # What every operation of an event leaves of its notices and of a claim's aging

A notice once posted stays before those posted later; a claim of the table keeps its aging timer while its phase stays, and
has none once it is granted. -/

namespace Sys2Proof.Machine

/-! ## The relation -/

/-- What can become of a claim's phase and aging timer (R74, R78). -/
def Claim.AgesOn (c d : Claim) : Prop := (d.phase = c.phase ∧ d.aging = c.aging) ∨ (d.phase = .held ∧ d.aging = none)

theorem Claim.AgesOn.refl (c : Claim) : c.AgesOn c := .inl ⟨rfl, rfl⟩

theorem Claim.AgesOn.trans {b c d : Claim} (h : b.AgesOn c) (k : c.AgesOn d) : b.AgesOn d := by
  rcases k with ⟨phase, aging⟩ | ended
  · rcases h with ⟨phase', aging'⟩ | ⟨held, stopped⟩
    · exact .inl ⟨phase.trans phase', aging.trans aging'⟩
    · exact .inr ⟨phase.trans held, aging.trans stopped⟩
  · exact .inr ended

/-- The second event follows from the first by operations that make no claim and take no notice back. -/
structure Event.Goes (ev ev' : Event) : Prop where
  out : ev.out <+: ev'.out
  claims : ∀ d ∈ ev'.guard.claims, ∃ c ∈ ev.guard.claims, d.key = c.key ∧ c.AgesOn d

theorem Event.Goes.trans {a b c : Event} (h : a.Goes b) (k : b.Goes c) : a.Goes c where
  out := h.out.trans k.out
  claims d hd := by
    obtain ⟨e, he, key, ages⟩ := k.claims d hd
    obtain ⟨f, hf, key', ages'⟩ := h.claims e he
    exact ⟨f, hf, key.trans key', ages'.trans ages⟩

theorem Event.Goes.of_claims {ev ev' : Event} (out : ev.out <+: ev'.out) (claims : ev'.guard.claims = ev.guard.claims) :
    ev.Goes ev' := ⟨out, fun d hd => ⟨d, claims ▸ hd, rfl, .refl d⟩⟩

theorem Event.Goes.same {ev ev' : Event} (out : ev'.out = ev.out) (claims : ev'.guard.claims = ev.guard.claims) :
    ev.Goes ev' := .of_claims (out ▸ List.prefix_refl _) claims

theorem Event.Goes.refl (ev : Event) : ev.Goes ev := .same rfl rfl

theorem Event.post_goes (ev : Event) (p : Posted) : ev.Goes (ev.post p) := .of_claims (List.prefix_append _ _) rfl

/-- Claims changed one by one. -/
theorem Event.Goes.mapped {ev ev' : Event} {f : Claim → Claim} (out : ev'.out = ev.out)
    (claims : ev'.guard.claims = ev.guard.claims.map f) (h : ∀ c, (f c).key = c.key ∧ c.AgesOn (f c)) : ev.Goes ev' where
  out := out ▸ List.prefix_refl _
  claims d hd := by
    rw [claims] at hd
    obtain ⟨c, hc, rfl⟩ := List.mem_map.1 hd
    exact ⟨c, hc, h c⟩

theorem Event.onClaim_goes (ev : Event) (k : ClaimKey) {f : Claim → Claim} (h : ∀ c, (f c).key = c.key ∧ c.AgesOn (f c)) :
    ev.Goes (ev.onGuard fun g => g.onClaim k f) := by
  refine .mapped rfl (f := fun c => if c.key = k then f c else c) rfl fun c => ?_
  split
  · exact h c
  · exact ⟨rfl, .refl c⟩

theorem Event.Goes.foldl {α : Type} {f : Event → α → Event} (h : ∀ (ev : Event) (a : α), ev.Goes (f ev a)) (as : List α) (ev : Event) :
    ev.Goes (as.foldl f ev) := by
  induction as generalizing ev with
  | nil => exact .refl _
  | cons a as ih => exact (h ev a).trans (ih _)

/-! ## Claims that leave -/

theorem Event.onGuard_goes (ev : Event) {f : Guard → Guard} (claims : ∀ g, (f g).claims = g.claims) :
    ev.Goes (ev.onGuard f) := .same rfl (claims ev.guard)

theorem Event.removeClaim_goes (ev : Event) (k : ClaimKey) : ev.Goes (ev.onGuard fun g => g.removeClaim k) :=
  ⟨List.prefix_refl _, fun d hd => ⟨d, (List.mem_filter.1 hd).1, rfl, .refl d⟩⟩

theorem Event.succeed_goes (ev : Event) (c : Claim) : ev.Goes (ev.onGuard fun g => g.succeed c) := by
  unfold Guard.succeed
  split
  · refine .mapped rfl (f := fun d => if d.arm = c.arm.other ∧ d.reserving = .junior then { d with reserving := .senior } else d)
      rfl fun d => ?_
    split <;> exact ⟨rfl, .inl ⟨rfl, rfl⟩⟩
  · exact .refl _

theorem Event.reindex_goes (ev : Event) (cells : CellSet) : ev.Goes (ev.onGuard fun g => g.reindex cells) :=
  .same rfl (Guard.reindex_claims _ _)

theorem Event.settleEntry_goes (ev : Event) (c : Claim) (o : EntryOutcome) : ev.Goes (ev.settleEntry c o) :=
  .same (ev.settleEntry_out c o) (ev.settleEntry_claims c o)

/-- The event in which a waiting claim has left the table. -/
theorem Event.leaveWaiting_goes (ev : Event) (c : Claim) (n : ArmNotice) : ev.Goes (ev.leaveWaiting c n) :=
  ((((ev.removeClaim_goes c.key).trans (Event.succeed_goes _ c)).trans (Event.reindex_goes _ c.reserved)).trans
    (Event.post_goes _ (.toArm c.arm n))).trans (.trans (Event.settleEntry_goes _ c .missed) (.same rfl rfl))

theorem Event.withdrawAll_goes (ev : Event) (p : Claim → Bool) : ev.Goes (ev.withdrawAll p) := by
  refine .foldl (fun ev k => ?_) _ ev
  split
  · exact ev.leaveWaiting_goes _ _
  · exact .refl _

/-! ## Reads -/

theorem Event.rise_goes (ev : Event) (s n : Nat) : ev.Goes (ev.rise s n) := by
  unfold Event.rise
  split
  · dsimp only
    split <;> exact .same rfl rfl
  · exact .refl _

theorem Event.postRead_goes (ev : Event) (n : Notice) : ev.Goes (ev.postRead n) := by
  unfold Event.postRead
  split
  · exact ev.post_goes _
  · exact .same rfl rfl

theorem Event.uncorrectable_goes (ev : Event) (c : Cell) : ev.Goes (ev.uncorrectable c) :=
  ((ev.onGuard_goes (f := fun g => g.reindexCell c) fun _ => rfl).trans (Event.rise_goes _ c.sec 4)).trans
    (.same (ev' := ev.uncorrectable c) rfl rfl)

theorem Event.poison_goes (ev : Event) (c : Cell) : ev.Goes (ev.poison c) :=
  .mapped rfl (f := fun k => { k with
      effective := if k.isHeld then dropCell k.effective c else k.effective
      reserved := dropCell k.reserved c }) rfl fun _ => ⟨rfl, .inl ⟨rfl, rfl⟩⟩

theorem Event.readRaw_goes (ev : Event) (who : Reader) (c : Cell) : ev.Goes (ev.readRaw who c).1 := by
  unfold Event.readRaw
  split
  · exact .refl _
  · dsimp only
    refine .trans (b := { ev with guard := ev.guard.drawFinding.2 }) (.same rfl ev.guard.drawFinding_claims) ?_
    split
    · exact .refl _
    · exact .trans (Event.rise_goes _ c.sec 1) (.same rfl rfl)
    · exact .trans (Event.uncorrectable_goes _ c) (Event.postRead_goes _ _)
    · exact .trans (.trans (.trans (Event.uncorrectable_goes _ c) (Event.postRead_goes _ _)) (Event.poison_goes _ c))
        (Event.postRead_goes _ _)

theorem Event.formRaw_goes (ev : Event) (cells : CellSet) : ev.Goes (ev.formRaw cells).1 := by
  induction cells generalizing ev with
  | nil => exact .refl _
  | cons c cs ih => exact .trans (ev.readRaw_goes .arbiter c) (ih _)

theorem Event.refit_goes (ev : Event) (k : ClaimKey) (old kept : CellSet) (n : Nat) :
    ev.Goes (ev.onGuard fun g => g.refit k old kept n) :=
  (ev.onClaim_goes k (f := fun c => { c with
      effective := kept
      excluded := n - kept.length
      reserved := c.reserved.filter fun d => d ∈ kept }) fun _ => ⟨rfl, .inl ⟨rfl, rfl⟩⟩).trans
    (Event.reindex_goes _ (minusCells old kept))

theorem Event.reform_goes (ev : Event) (k : ClaimKey) : ev.Goes (ev.reform k) := by
  unfold Event.reform
  split
  · exact .refl _
  · rename_i c _
    dsimp only
    refine .trans (.trans (ev.formRaw_goes (c.shape.cells ev.guard.cfg)) (Event.refit_goes _ k c.reserved
      (ev.formRaw (c.shape.cells ev.guard.cfg)).2 (c.shape.cells ev.guard.cfg).length)) ?_
    split
    · split
      · refine .trans ?_ (Event.leaveWaiting_goes _ _ _)
        exact .same rfl rfl
      · exact .same rfl rfl
    · exact .same rfl rfl

theorem Event.settleRounds_goes (n : Nat) (ev : Event) : ev.Goes (ev.settleRounds n) := by
  induction n generalizing ev with
  | zero => exact .refl _
  | succ n ih =>
    unfold Event.settleRounds
    split
    · exact .refl _
    · exact .trans (.trans (b := { ev with touched := [] }) (.same rfl rfl) (.foldl Event.reform_goes _ _)) (ih _)

theorem Event.settle_goes (ev : Event) : ev.Goes ev.settle := ev.settleRounds_goes 769

theorem Event.readCell_goes (ev : Event) (who : Reader) (c : Cell) : ev.Goes (ev.readCell who c).1 :=
  (ev.readRaw_goes who c).trans (Event.settle_goes _)

theorem Event.readCells_goes (ev : Event) (who : Reader) (cells : CellSet) : ev.Goes (ev.readCells who cells).1 := by
  induction cells generalizing ev with
  | nil => exact .refl _
  | cons c cs ih => exact .trans (ev.readCell_goes who c) (ih _)

theorem Event.rewriteAll_goes (ev : Event) (cause : PoisonCause) (cells : CellSet) : ev.Goes (ev.rewriteAll cause cells) := by
  refine .foldl (fun ev c => ?_) cells ev
  dsimp only
  have rewritten : ev.Goes (ev.rewrite c).1 := .same rfl (Guard.drawFinding_claims _)
  split
  · exact rewritten
  · exact rewritten.trans (.trans (.trans (Event.poison_goes _ c) (Event.settle_goes _)) (Event.post_goes _ _))

/-! ## The evaluation -/

theorem Event.testCells_goes (ev : Event) (x : Arm) (ok : Bool) (cells : CellSet) : ev.Goes (ev.testCells x ok cells).1 := by
  induction cells generalizing ev ok with
  | nil => exact .refl _
  | cons c cs ih =>
    unfold Event.testCells
    dsimp only
    split
    · exact ev.readCell_goes _ _
    · exact .trans (ev.readCell_goes _ _) (ih _ _)

theorem Event.testClaim_goes (n : Nat) (ev : Event) (k : ClaimKey) : ev.Goes (ev.testClaim n k).1 := by
  induction n generalizing ev with
  | zero => exact .refl _
  | succ n ih =>
    unfold Event.testClaim
    split
    · exact .refl _
    · rename_i c _
      have tested := ev.testCells_goes c.arm true c.effective
      generalize ev.testCells c.arm true c.effective = r at tested ⊢
      obtain ⟨ev', ok⟩ := r
      cases ok with
      | none => exact tested.trans (ih _)
      | some ok =>
        dsimp only
        split
        · exact tested
        · exact tested.trans (ih _)

theorem Event.grant_goes (ev : Event) (c : Claim) : ev.Goes (ev.grant c) := by
  refine .trans (b := ev.onGuard fun g => g.grant c) (.mapped rfl (ev.guard.grant_claims c) fun d => ?_)
    (.of_claims (List.prefix_append _ _) (by rw [Event.grant_guard, Guard.signal_claims, Guard.signal_claims]; rfl))
  unfold Claim.afterGrant
  by_cases own : d.key = c.key
  · rw [if_pos own]
    dsimp only
    split <;> exact ⟨rfl, .inr ⟨rfl, rfl⟩⟩
  · rw [if_neg own]
    dsimp only
    split <;> exact ⟨rfl, .inl ⟨rfl, rfl⟩⟩

theorem Event.reserve_goes (ev : Event) (c : Claim) : ev.Goes (ev.onGuard fun g => g.reserve c) :=
  .mapped rfl (ev.guard.reserve_claims c) fun d => by
    unfold Guard.reservation
    split <;> exact ⟨rfl, .inl ⟨rfl, rfl⟩⟩

theorem Event.takeCandidate_goes (ev : Event) (k : ClaimKey) : ev.Goes (ev.takeCandidate k) := by
  unfold Event.takeCandidate
  refine .trans (ev.testClaim_goes 769 k) ?_
  dsimp only
  split
  · exact .refl _
  · split
    · exact Event.grant_goes _ _
    · split
      · exact Event.reserve_goes _ _
      · exact .refl _

theorem Event.evaluateRounds_goes (n : Nat) (ev : Event) (taken : List ClaimKey) : ev.Goes (ev.evaluateRounds n taken) := by
  induction n generalizing ev taken with
  | zero => exact .refl _
  | succ n ih =>
    unfold Event.evaluateRounds
    split
    · exact .refl _
    · exact .trans (.trans (b := { ev with reformed := [] }) (.same rfl rfl) (Event.takeCandidate_goes _ _)) (ih _ _)

theorem Event.runEvaluation_goes (ev : Event) : ev.Goes ev.runEvaluation := by
  unfold Event.runEvaluation
  split
  · exact .same rfl rfl
  · exact .trans (ev.evaluateRounds_goes 4000 []) (.same rfl rfl)

theorem Event.evaluateIfCalled_goes (ev : Event) : ev.Goes ev.evaluateIfCalled := by
  unfold Event.evaluateIfCalled
  split
  · exact ev.runEvaluation_goes
  · exact .refl _

/-! ## The action unit and the handover -/

theorem Event.raise_goes (ev : Event) (x : Arm) (src : Source) : ev.Goes (ev.raise x src) := by
  unfold Event.raise
  split
  · exact .refl _
  · exact .same rfl (Guard.onArm_claims _ _ _)

theorem Guard.changeLevel_claims (g : Guard) (x : Arm) (l : Level) : (g.changeLevel x l).claims = g.claims :=
  (Guard.onArm_claims _ _ _).trans (Guard.onArm_claims _ _ _)

theorem Event.computeLevel_goes (ev : Event) (x : Arm) : ev.Goes (ev.computeLevel x) := by
  unfold Event.computeLevel
  dsimp only
  have leveled : ev.Goes (ev.onGuard fun g => g.changeLevel x (ev.guard.levelFor x)) :=
    .same rfl (Guard.changeLevel_claims _ _ _)
  split
  · exact .refl _
  · split
    · exact leveled.trans (Event.withdrawAll_goes _ _)
    · exact leveled

theorem Event.postFaults_goes (ev : Event) : ev.Goes ev.postFaults := by
  rw [Event.postFaults_eq]
  exact .of_claims (List.prefix_append _ _) rfl

theorem Event.latchRevoked_goes (ev : Event) (named : Arm → Bool) : ev.Goes (ev.latchRevoked named) := by
  have latch : ∀ (e : Event) (x : Arm), e.Goes
      (if named x && (e.guard.arm x).calculator.zone = .inside then e.raise x .revoked else e) := by
    intro e x
    split
    · exact e.raise_goes x .revoked
    · exact .refl _
  exact .trans (.trans (.trans (.trans (latch ev .A) (latch _ .B)) (Event.computeLevel_goes _ .A))
    (Event.computeLevel_goes _ .B)) (Event.postFaults_goes _)

theorem Event.endHeld_goes (ev : Event) (k : ClaimKey) (o : EntryOutcome) : ev.Goes (ev.endHeld k o) := by
  unfold Event.endHeld
  split
  · exact .refl _
  · dsimp only
    rename_i c _
    refine .trans (ev.readCells_goes .handover (ev.guard.ownCellsOf c)) ?_
    split
    · exact .refl _
    · rename_i d _
      refine .trans (.trans (Event.removeClaim_goes _ k) (Event.settleEntry_goes _ d o)) ?_
      split
      · exact .same rfl (Guard.reindex_claims _ _)
      · exact .same rfl ((Guard.reindex_claims _ _).trans (Guard.onArm_claims _ _ _))

theorem Event.endClaims_goes (ev : Event) (ks : List ClaimKey) : ev.Goes (ev.endClaims ks).1 := by
  induction ks generalizing ev with
  | nil => exact .refl _
  | cons k ks ih =>
    unfold Event.endClaims
    split
    · exact ih ev
    · rename_i c _
      split
      · exact .trans (.trans (ev.post_goes _) (Event.endHeld_goes _ c.key .missed)) (ih _)
      · exact .trans (ev.leaveWaiting_goes c _) (ih _)

/-! ## Retirement, flush, and the end of an event -/

theorem Event.retireSection_goes (ev : Event) (s : Nat) : ev.Goes (ev.onGuard fun g => g.retireSection s) :=
  .mapped rfl (f := fun c => { c with reserved := c.reserved.filter fun d => d.sec ≠ s }) (Guard.reindex_claims _ _)
    fun _ => ⟨rfl, .inl ⟨rfl, rfl⟩⟩

theorem Event.touching_goes (ev : Event) (cells : CellSet) : ev.Goes (ev.touching cells) := .same rfl rfl

theorem Event.retire_goes (ev : Event) (s : Nat) : ev.Goes (ev.retire s) := by
  unfold Event.retire
  dsimp only
  refine .trans ?_ (Event.runEvaluation_goes _)
  refine .trans ?_ (Event.onGuard_goes _ (f := Guard.restartScrub) fun _ => rfl)
  refine .trans ?_ (Event.post_goes _ _)
  refine .trans ?_ (Event.settle_goes _)
  refine .trans ?_ (Event.touching_goes _ _)
  refine .trans ?_ (Event.latchRevoked_goes _ _)
  refine .trans ?_ (Event.endClaims_goes _ _)
  exact .trans (.trans (ev.readCells_goes _ _) (Event.retireSection_goes _ s)) (.same rfl rfl)

theorem Event.errorsReset_goes (ev : Event) (s : Nat) :
    ev.Goes { (ev.onGuard fun g => g.onSection s fun t => { t with errors := 0 }) with
      reached := ev.reached.filter fun t => t ≠ s } := .same rfl rfl

theorem Event.flush_goes (ev : Event) (s : Nat) : ev.Goes (ev.flush s) := by
  unfold Event.flush
  dsimp only
  refine .trans ?_ (Event.runEvaluation_goes _)
  refine .trans ?_ (Event.post_goes _ _)
  refine .trans ?_ (Event.errorsReset_goes _ s)
  refine .trans ?_ (Event.rewriteAll_goes _ _ _)
  refine .trans ?_ (Event.reindex_goes _ _)
  exact .trans (ev.endClaims_goes _) (Event.latchRevoked_goes _ _)

theorem Event.dealWithSections_goes (n : Nat) (ev : Event) : ev.Goes (ev.dealWithSections n) := by
  induction n generalizing ev with
  | zero => exact .refl _
  | succ n ih =>
    unfold Event.dealWithSections
    split
    · exact .refl _
    · refine .trans ?_ (ih _)
      split
      · exact .same rfl rfl
      · split
        · exact ev.retire_goes _
        · exact ev.flush_goes _

theorem Event.endPlan_goes (ev : Event) (x : Arm) (i : SlotIx) : ev.Goes (ev.endPlan x i) := by
  refine .of_claims ?_ (ev.endPlan_claims x i)
  unfold Event.endPlan
  split
  · split
    · exact List.prefix_refl _
    · exact ⟨_, (List.append_assoc _ _ _).symm⟩
  · exact List.prefix_refl _

theorem Event.endPlans_goes (ev : Event) : ev.Goes ev.endPlans :=
  .trans (b := { ev with judged := [] }) (.same rfl rfl)
    (.foldl (f := fun ev (j : Arm × SlotIx) => ev.endPlan j.1 j.2) (fun ev j => ev.endPlan_goes j.1 j.2) _ _)

theorem Event.endDraining_goes (ev : Event) : ev.Goes ev.endDraining := by
  unfold Event.endDraining
  split
  · exact .of_claims (List.prefix_append _ _) rfl
  · exact .refl _

theorem Event.afterReply_goes (ev : Event) : ev.Goes ev.afterReply := .of_claims (List.prefix_append _ _) rfl

theorem Event.finish_goes (ev : Event) : ev.Goes ev.finish :=
  (((ev.evaluateIfCalled_goes.trans (Event.afterReply_goes _)).trans
    (Event.dealWithSections_goes 8 ev.evaluateIfCalled.afterReply)).trans (Event.endPlans_goes _)).trans
    (Event.endDraining_goes _)

end Sys2Proof.Machine

/-! # AGING_TIMER_EXPIRY and TIMEOUT_TIMER_EXPIRY (O36) -/

namespace Sys2Proof.Machine

/-! ## An expiry that is not due -/

section
variable {s : State} {x : Arm} {number : Byte} (powered : s.guard.powered = true)
include powered

theorem State.agingExpiry_idle
    (h : ∀ k, s.guard.claim? ⟨x, number⟩ = some k → ¬(k.phase = .waiting ∧ s.guard.due k.aging = true)) :
    exec (.agingTimerExpiry x number) s = .next s := by
  change execAgingTimerExpiry x number s = _
  rw [execAgingTimerExpiry, State.whenPowered_on powered]
  refine congrArg Host.Outcome.next ?_
  split
  · rfl
  · rename_i k found
    refine if_neg fun due => h k found ?_
    simpa [Claim.isWaiting] using due

theorem State.timeoutExpiry_idle
    (h : ∀ k, s.guard.claim? ⟨x, number⟩ = some k → ¬(k.phase = .waiting ∧ s.guard.due k.timeout = true)) :
    exec (.timeoutTimerExpiry x number) s = .next s := by
  change execTimeoutTimerExpiry x number s = _
  rw [execTimeoutTimerExpiry, State.whenPowered_on powered]
  refine congrArg Host.Outcome.next ?_
  split
  · rfl
  · rename_i k found
    refine if_neg fun due => h k found ?_
    simpa [Claim.isWaiting] using due

variable {k : Claim} (found : s.guard.claim? ⟨x, number⟩ = some k) (waiting : k.phase = .waiting)
include found waiting

theorem State.agingExpiry_due (due : s.guard.due k.aging = true) :
    exec (.agingTimerExpiry x number) s = .next (s.conclude (s.guard.agingExpiry k.key)) := by
  change execAgingTimerExpiry x number s = _
  rw [execAgingTimerExpiry, State.whenPowered_on powered]
  refine congrArg Host.Outcome.next ?_
  rw [found]
  exact if_pos (by simp [Claim.isWaiting, waiting, due])

theorem State.timeoutExpiry_due (due : s.guard.due k.timeout = true) :
    exec (.timeoutTimerExpiry x number) s = .next (s.conclude (s.guard.quietEvent.bounce k .timeout)) := by
  change execTimeoutTimerExpiry x number s = _
  rw [execTimeoutTimerExpiry, State.whenPowered_on powered]
  refine congrArg Host.Outcome.next ?_
  rw [found]
  exact if_pos (by simp [Claim.isWaiting, waiting, due])

end

/-! ## The aging timer -/

section
variable {g : Guard} {k : Claim} (member : k ∈ g.claims) (differ : g.keysDiffer)
include member differ

/-- The aged claim is the only one of its name. -/
theorem Guard.agingExpiry_own {d : Claim} (hd : d ∈ (g.agingExpiry k.key).guard.claims) (own : d.key = k.key) :
    d = k.aged g := by
  obtain ⟨c, hc, rfl⟩ := List.mem_map.1 hd
  dsimp only at own ⊢
  by_cases e : c.key = k.key
  · rw [if_pos e, differ.eq hc member e]
    rfl
  · rw [if_neg e] at own
    exact absurd own e

theorem Guard.agingExpiry_claim {d : Claim} (hd : d ∈ (g.agingExpiry k.key).finish.guard.claims) (own : d.key = k.key)
    (waiting : k.phase = .waiting) : d.priority = min 7 (k.priority + 1) ∧
      d.aging = if d.phase = .waiting ∧ k.priority + 1 < 7 then some (g.now + g.cfg.tAge) else none := by
  constructor
  · obtain ⟨c, hc, keeps⟩ := (g.agingExpiry k.key).finish_change.claim d hd
    have aged := Guard.agingExpiry_own member differ hc (keeps.key.symm.trans own)
    rw [keeps.2.2.2.1, aged]
    rfl
  · obtain ⟨c, hc, key, ages⟩ := (g.agingExpiry k.key).finish_goes.claims d hd
    have aged := Guard.agingExpiry_own member differ hc (key.symm.trans own)
    rcases ages with ⟨phase, aging⟩ | ⟨held, stopped⟩
    · have waits : d.phase = .waiting := by rw [phase, aged]; exact waiting
      rw [aging, aged]
      simp only [waits, true_and]
      rfl
    · rw [stopped, held]
      simp

theorem Guard.agingExpiry_followedBy :
    (g.onClaim k.key fun d => { d with priority := min 7 (k.priority + 1) }).followedBy (g.agingExpiry k.key).finish.guard := by
  obtain ⟨cfg, now, powered, permit, cut, fences, leak, passes, mode, arms, claims, retired⟩ :=
    (g.agingExpiry k.key).finish_change.followedBy
  refine ⟨cfg, now, powered, permit, cut, fences, leak, passes, mode, fun x => by cases x; exacts [arms .A, arms .B],
    fun d hd => ?_, retired⟩
  obtain ⟨c, hc, keeps⟩ := claims d hd
  obtain ⟨b, hb, rfl⟩ := List.mem_map.1 hc
  refine ⟨_, List.mem_map.2 ⟨b, hb, rfl⟩, ?_⟩
  dsimp only at keeps ⊢
  by_cases own : b.key = k.key
  · rw [if_pos own] at keeps ⊢
    rw [differ.eq hb member own] at keeps ⊢
    exact keeps
  · rw [if_neg own] at keeps ⊢
    exact keeps

theorem Guard.agingExpiry_stays (good : g.foretoldGood) (reads : (g.agingExpiry k.key).finish.guard.reads = g.reads) :
    ∃ d ∈ (g.agingExpiry k.key).finish.guard.claims, { k with priority := min 7 (k.priority + 1) }.keeps d := by
  have aged : k.aged g ∈ (g.agingExpiry k.key).guard.claims := List.mem_map.2 ⟨k, member, if_pos rfl⟩
  have differs : (g.agingExpiry k.key).guard.keysDiffer := by
    unfold Guard.keysDiffer Guard.keys
    rw [show (g.agingExpiry k.key).guard.claims.map Claim.key = g.claims.map Claim.key from ?_]
    · exact differ
    · refine (List.map_map).trans (List.map_congr_left fun c _ => ?_)
      dsimp only [Function.comp]
      split <;> rfl
  obtain ⟨d, hd, stays⟩ := Event.finish_stays (ev := g.agingExpiry k.key) good rfl rfl differs reads _ aged
  exact ⟨d, hd, stays.keeps⟩

end

/-! ## The timeout timer -/

theorem Event.takeCandidate_slot {ev : Event} (good : ev.guard.foretoldGood) (touched : ev.touched = []) {k : ClaimKey}
    (reads : (ev.takeCandidate k).guard.reads = ev.guard.reads) (x : Arm) (i : SlotIx) :
    ((ev.takeCandidate k).guard.arm x).slot i = (ev.guard.arm x).slot i := by
  cases found : ev.guard.claim? k with
  | some c =>
    obtain ⟨n, e⟩ := Event.takeCandidate_tried good touched found reads
    rw [e, (Event.tried_arm_kept _ c _ x).2]
    exact congrArg (fun a : ArmState => a.slot i) (Guard.drawn_arm _ n x)
  | none =>
    rw [Event.takeCandidate_reads] at reads
    obtain ⟨n, drawn⟩ := Event.testClaim_drawn 769 good touched reads
    unfold Event.takeCandidate
    dsimp only
    rw [drawn, show (ev.drawn n).guard.claim? k = none from found]
    exact congrArg (fun a : ArmState => a.slot i) (Guard.drawn_arm _ n x)

/-- With good reads an evaluation leaves every slot alone. -/
theorem Event.evaluateRounds_slot (n : Nat) {ev : Event} (good : ev.guard.foretoldGood) (touched : ev.touched = [])
    {taken : List ClaimKey} (reads : (ev.evaluateRounds n taken).guard.reads = ev.guard.reads) (x : Arm) (i : SlotIx) :
    ((ev.evaluateRounds n taken).guard.arm x).slot i = (ev.guard.arm x).slot i := by
  induction n generalizing ev taken with
  | zero => rfl
  | succ n ih =>
    unfold Event.evaluateRounds at reads ⊢
    split
    · rfl
    · rename_i b found
      rw [found] at reads
      dsimp only at reads ⊢
      have first := Nat.le_antisymm (reads ▸ Event.evaluateRounds_reads_le n _ _)
        (Event.takeCandidate_reads_le { ev with reformed := [] } b.key)
      obtain ⟨step, -⟩ := Event.takeCandidate_holdsOn (ev := { ev with reformed := [] }) good touched first
      exact (ih step.good (step.touched.trans touched) (reads.trans first.symm)).trans
        (Event.takeCandidate_slot (ev := { ev with reformed := [] }) good touched first x i)

theorem Event.evaluateIfCalled_slot {ev : Event} (good : ev.guard.foretoldGood) (touched : ev.touched = [])
    (reads : ev.evaluateIfCalled.guard.reads = ev.guard.reads) (x : Arm) (i : SlotIx) :
    (ev.evaluateIfCalled.guard.arm x).slot i = (ev.guard.arm x).slot i := by
  unfold Event.evaluateIfCalled Event.runEvaluation at reads ⊢
  split
  · rename_i called
    rw [if_pos called] at reads
    split
    · rfl
    · rename_i mode
      rw [if_neg mode] at reads
      exact Event.evaluateRounds_slot 4000 good touched reads x i
  · rfl

/-- An ACTIVE slot is not ended by the way. -/
theorem Event.endPlan_active (ev : Event) (y : Arm) (j : SlotIx) {x : Arm} {i : SlotIx} {q : Plan}
    (h : (ev.guard.arm x).slot i = .active q) : ((ev.endPlan y j).guard.arm x).slot i = .active q := by
  unfold Event.endPlan
  split
  · rename_i p finishing
    split
    · exact h
    · change ((ev.guard.onArm y fun a => a.setSlot j .empty).arm x).slot i = .active q
      rw [Guard.arm_onArm_eq]
      split
      · rename_i same
        rw [ArmState.slot_setSlot_eq, if_neg]
        · exact h
        · rintro rfl
          rw [same, h] at finishing
          cases finishing
      · exact h
  · exact h

theorem Event.endPlans_active {ev : Event} {x : Arm} {i : SlotIx} {q : Plan} (h : (ev.guard.arm x).slot i = .active q) :
    (ev.endPlans.guard.arm x).slot i = .active q := by
  unfold Event.endPlans
  generalize keepLast ev.judged = js
  have fold : ∀ (js : List (Arm × SlotIx)) (e : Event), (e.guard.arm x).slot i = .active q →
      ((js.foldl (fun ev j => ev.endPlan j.1 j.2) e).guard.arm x).slot i = .active q := by
    intro js
    induction js with
    | nil => exact fun _ h => h
    | cons j js ih => exact fun e h => ih _ (e.endPlan_active j.1 j.2 h)
  exact fold js { ev with judged := [] } h

/-- With good reads an ACTIVE slot stays as it is to the end of the event. -/
theorem Event.finish_active {ev : Event} (good : ev.guard.foretoldGood) (touched : ev.touched = []) (reached : ev.reached = [])
    (reads : ev.finish.guard.reads = ev.guard.reads) {x : Arm} {i : SlotIx} {q : Plan}
    (h : (ev.guard.arm x).slot i = .active q) : (ev.finish.guard.arm x).slot i = .active q := by
  have evaluated := Nat.le_antisymm (reads ▸ ev.finish_reads_le) ev.evaluateIfCalled_reads_le
  obtain ⟨steady, -⟩ := Event.evaluateIfCalled_holdsOn good touched evaluated
  unfold Event.finish
  rw [Event.dealWithSections_none 8 (ev := ev.evaluateIfCalled.afterReply) (steady.reached.trans reached),
    Event.endDraining_arm]
  exact Event.endPlans_active ((Event.evaluateIfCalled_slot good touched evaluated x i).trans h)

theorem Event.endDraining_guarding {ev : Event} (mode : ev.guard.mode = .guarding) : ev.endDraining = ev := by
  unfold Event.endDraining
  rw [if_neg (by rw [mode]; exact fun h => Mode.noConfusion h.1)]

section
variable {g : Guard} {k : Claim}

/-- BOUNCED is posted before anything else of the event. -/
theorem Guard.timeout_posted (g : Guard) (k : Claim) :
    ∃ out, (g.quietEvent.bounce k .timeout).finish.out = .toArm k.arm (.bounced k.number k.origin .timeout) :: out := by
  obtain ⟨out, e⟩ := (g.quietEvent.bounce k .timeout).finish_goes.out
  exact ⟨out, e ▸ congrArg (· ++ out) (g.quietEvent.leaveWaiting_out k _)⟩

theorem Guard.timeout_gone (g : Guard) (k : Claim) :
    ∀ d ∈ (g.quietEvent.bounce k .timeout).finish.guard.claims, d.key ≠ k.key :=
  (g.quietEvent.bounce k .timeout).finish_change.gone (g.quietEvent.leaveWaiting_gone k _)

variable {i : SlotIx} {n : Nat} {q : Plan} (origin : k.origin = .plan i n) (active : (g.arm k.arm).slot i = .active q)
include origin active

theorem Guard.timeout_slot : ((g.quietEvent.bounce k .timeout).guard.arm k.arm).slot i =
    .active { q with missed := sat16 (q.missed + 1) } := by
  refine (g.quietEvent.leaveWaiting_slot _ origin).trans ?_
  rw [show (g.quietEvent.guard.arm k.arm).slot i = .active q from active]
  rfl

theorem Guard.timeout_missed (good : g.foretoldGood)
    (reads : (g.quietEvent.bounce k .timeout).finish.guard.reads = g.reads) :
    ((g.quietEvent.bounce k .timeout).finish.guard.arm k.arm).slot i = .active { q with missed := sat16 (q.missed + 1) } := by
  have still := g.quietEvent.leaveWaiting_still k (.bounced k.number k.origin .timeout)
  have steady := still.steady good
  exact Event.finish_active steady.good steady.touched steady.reached (reads.trans still.reads.symm)
    (Guard.timeout_slot origin active)

/-- The bounce of the only claim, of a plan that goes on, brings nothing else about. -/
theorem Guard.timeout_alone (sole : g.claims = [k]) (mode : g.mode = .guarding) :
    (g.quietEvent.bounce k .timeout).finish.out = [.toArm k.arm (.bounced k.number k.origin .timeout)] := by
  have still := g.quietEvent.leaveWaiting_still k (.bounced k.number k.origin .timeout)
  have none : (g.quietEvent.bounce k .timeout).guard.claims = [] := by
    refine List.eq_nil_iff_forall_not_mem.2 fun d hd => ?_
    obtain ⟨c, hc, keeps⟩ := (g.quietEvent.bounce_change k .timeout).claim d hd
    rw [show g.quietEvent.guard.claims = [k] from sole, List.mem_singleton] at hc
    exact g.quietEvent.leaveWaiting_gone k _ d hd (hc ▸ keeps.key)
  have guarding : (g.quietEvent.bounce k .timeout).guard.mode = .guarding :=
    (g.quietEvent.bounce_change k .timeout).mode_guarding mode
  have judged : (g.quietEvent.bounce k .timeout).judged = [(k.arm, i)] := by
    unfold Event.bounce Event.leaveWaiting Event.settleEntry
    rw [origin]
    rfl
  have slot := Guard.timeout_slot origin active
  have out := g.quietEvent.leaveWaiting_out k (.bounced k.number k.origin .timeout)
  change (g.quietEvent.bounce k .timeout).out = [_] at out
  have late : (g.quietEvent.bounce k .timeout).late = [] := still.late
  have reached : (g.quietEvent.bounce k .timeout).reached = [] := still.reached
  generalize g.quietEvent.bounce k .timeout = ev at none guarding judged slot out late reached ⊢
  have ends : ∀ e : Event, ev.evaluateIfCalled = e → e.guard = ev.guard → e.out = ev.out → e.late = ev.late →
      e.reached = ev.reached → e.judged = ev.judged → ev.finish.out = [.toArm k.arm (.bounced k.number k.origin .timeout)] := by
    intro e evaluated guard' out' late' reached' judged'
    rw [Event.finish_undrained evaluated (reached'.trans reached), Event.endDraining_guarding (guard' ▸ guarding)]
    · exact (congrArg₂ (· ++ ·) (out'.trans out) (late'.trans late)).trans rfl
    · intro j hj p finishing
      rw [judged', judged, List.mem_singleton] at hj
      rw [hj, guard', slot] at finishing
      cases finishing
  rcases Event.evaluateIfCalled_idle (ev := ev) (fun c hc => by rw [none] at hc; cases hc) with e | e | e <;>
    exact ends _ e rfl rfl rfl rfl rfl

end

/-- Settles O36. -/
theorem waitingTimersExpire : Obligations.WaitingTimersExpire := by
  unfold Obligations.WaitingTimersExpire
  intro s x number powered now
  refine ⟨State.agingExpiry_idle powered, State.timeoutExpiry_idle powered, fun k found => ?_⟩
  obtain ⟨member, key⟩ := Guard.claim?_some found
  have arm : k.arm = x := congrArg ClaimKey.arm key
  have named : k.number = number := congrArg ClaimKey.number key
  subst arm named
  refine ⟨fun ⟨waiting, due⟩ differ => ?_, fun ⟨waiting, due⟩ => ?_⟩
  · exact ⟨_, State.agingExpiry_due powered found waiting due, ⟨_, rfl⟩,
      fun d hd own => Guard.agingExpiry_claim member differ hd own waiting,
      fun good => Guard.agingExpiry_stays member differ good.1 good.2, Guard.agingExpiry_followedBy member differ⟩
  · obtain ⟨out, posted⟩ := s.guard.timeout_posted k
    refine ⟨_, State.timeoutExpiry_due powered found waiting due, ⟨out, congrArg _ posted⟩, s.guard.timeout_gone k,
      (Guard.Change.trans (s.guard.quietEvent.bounce_change k .timeout) (Event.finish_change _)).followedBy,
      fun good i n q origin active => Guard.timeout_missed origin active good.1 good.2,
      fun i n q sole origin active mode => congrArg _ (Guard.timeout_alone origin active sole mode)⟩

end Sys2Proof.Machine

/-! # Two claims that wait: the candidates of both arms

`f` comes first. What stands in a candidate's way is read off the records: cells the other arm owns, poisoned cells, fenced
cells that the arm does not own, and the reservations of the other arm's waiting claim (`Guard.Faces`). A candidate taken
leaves a table whose claims are again of this form, so that the second is tested as the first was. -/

namespace Sys2Proof.Machine

/-! ## What stands in a candidate's way (R73) -/

/-- The cell is open to the arm, reservations aside. -/
def Guard.clearTo (g : Guard) (x : Arm) (d : Cell) : Prop :=
  g.ownedBy x.other d = false ∧ d ∉ g.poisoned ∧
    (g.ownedBy x d = true ∨ (d ∉ g.fences ∧ g.isRetired d.sec = false))

/-- Every cell of the claim is open to it, and none is barred. -/
def Guard.freeFor (g : Guard) (c : Claim) (barred : Cell → Prop) : Prop :=
  ∀ d ∈ c.effective, g.clearTo c.arm d ∧ ¬barred d

section
variable {g : Guard} (apart : g.apart) (x : Arm) (d : Cell)
include apart

theorem Guard.ownerOf_some_iff : g.ownerOf d = some x ↔ g.ownedBy x d = true := by
  have a := apart d
  unfold Guard.ownerOf
  cases x <;> cases hA : g.ownedBy .A d <;> cases hB : g.ownedBy .B d <;> simp_all

omit apart in
theorem Guard.ownerOf_none_iff : g.ownerOf d = none ↔ g.ownedBy x d = false ∧ g.ownedBy x.other d = false := by
  unfold Guard.ownerOf
  cases x <;> cases hA : g.ownedBy .A d <;> cases hB : g.ownedBy .B d <;> simp [Arm.other, hA, hB]

theorem Guard.ownedBy_other_eq_false (h : g.ownedBy x d = true) : g.ownedBy x.other d = false :=
  Guard.apart_iff.1 apart x d h

end

theorem Guard.derive_eq {g : Guard} {d : Cell} (h : g.cfg.inGrid d = true) : g.derive d =
    { owner := g.ownerOf d
      vacating := match g.ownerOf d with
        | some x => d ∈ (g.arm x).vacate
        | none => false
      hostFence := (g.ownerOf d).isNone && d ∈ g.fences
      faultFence := if d ∈ g.poisoned then .poisoned
        else if g.isRetired d.sec && (g.ownerOf d).isNone then .retired else .none
      fencePending := (g.ownerOf d).isSome && g.fencedByRecord d
      reservedFor := g.reservedFor d } := if_pos h

/-- What the test asks of a cell's entry, read off the records. -/
theorem Guard.tidy.open_iff {g : Guard} (t : g.tidy) {d : Cell} (h : g.cfg.inGrid d = true) (x : Arm) :
    ((g.entryOf d).faultFence ≠ .poisoned ∧ (g.entryOf d).availableTo x = true) ↔
      g.clearTo x d ∧ g.reservedFor d ≠ some x.other := by
  rw [t.agrees d (t.inStore h), Guard.derive_eq h]
  unfold Entry.availableTo Entry.isFree Guard.clearTo
  have own := Guard.ownerOf_some_iff t.fit.1 x d
  have free := g.ownerOf_none_iff x d
  by_cases poisoned : d ∈ g.poisoned
  · simp [poisoned]
  cases mine : g.ownedBy x d with
  | true =>
    simp [own.2 mine, Guard.ownedBy_other_eq_false t.fit.1 x d mine, poisoned]
  | false =>
    cases others : g.ownedBy x.other d with
    | true =>
      have owner := (Guard.ownerOf_some_iff t.fit.1 x.other d).2 others
      simp [owner, Arm.other_ne x]
    | false =>
      have owner := free.2 ⟨mine, others⟩
      cases retired : g.isRetired d.sec <;> simp [owner, poisoned]

/-! ## The other arm's reservations -/

/-- What the claim faces of the other arm's claims: the seniority of the one that reserves, what it reserves, and its
effective set. -/
structure Guard.Faces (g : Guard) (c : Claim) (rank : Reserving) (reserved effective : Cell → Prop) : Prop where
  reservedFor : ∀ d, g.reservedFor d = some c.arm.other ↔ reserved d
  reservingOf : (rank = .no ∧ g.reservingOf c.arm.other = none ∧ ∀ d, ¬reserved d) ∨
    ∃ k, g.reservingOf c.arm.other = some k ∧ k.reserving = rank ∧ rank ≠ .no ∧
      (∀ d, d ∈ k.reserved ↔ reserved d) ∧ ∀ d, d ∈ k.effective ↔ effective d

/-- The seniority that a claim reserves with, given its own so far and the other arm's (R76). -/
def Reserving.ranked (own others : Reserving) : Reserving :=
  if own ≠ .no then own else if others = .no then .senior else .junior

/-- The seniority that a claim is left with when the other arm's is granted (R77). -/
def Reserving.succeeding (own gone : Reserving) : Reserving :=
  if own = .junior ∧ gone = .senior then .senior else own

theorem Reserving.ranked_ne (own others : Reserving) : own.ranked others ≠ .no := by
  cases own <;> cases others <;> decide

/-- What a claim reserves, given what it reserved so far and what it faces. -/
def Claim.reserves (c : Claim) (rank : Reserving) (reserved effective : Cell → Prop) (d : Cell) : Prop :=
  d ∈ c.reserved ∨ (d ∈ c.effective ∧ ¬reserved d ∧ ¬(c.reserving.ranked rank = .junior ∧ rank = .senior ∧ effective d))

section
variable {g : Guard} {c : Claim} {rank : Reserving} {reserved effective : Cell → Prop}
  (faces : g.Faces c rank reserved effective)
include faces

theorem Guard.Faces.rankOf : g.rankOf c = c.reserving.ranked rank := by
  unfold Guard.rankOf Reserving.ranked
  rcases faces.reservingOf with ⟨no, none, -⟩ | ⟨k, found, -, ne, -, -⟩
  · cases h : c.reserving <;> simp [no, none]
  · cases h : c.reserving <;> simp [ne, found]

theorem Guard.Faces.mem_keptFrom (d : Cell) :
    d ∈ g.keptFrom c ↔ reserved d ∨ (c.reserving.ranked rank = .junior ∧ rank = .senior ∧ effective d) := by
  unfold Guard.keptFrom
  rw [faces.rankOf]
  rcases faces.reservingOf with ⟨no, none, nothing⟩ | ⟨k, found, senior, ne, own, all⟩
  · simp [none, nothing, no]
  · rw [found]
    dsimp only
    rw [senior]
    split
    · rename_i h
      rw [mem_unionCells, own, all]
      tauto
    · rename_i h
      rw [own]
      tauto

theorem Guard.Faces.mem_reservation (d : Cell) :
    d ∈ unionCells c.reserved (minusCells c.effective (g.keptFrom c)) ↔ c.reserves rank reserved effective d := by
  rw [mem_unionCells, mem_minusCells, faces.mem_keptFrom, not_or]
  rfl

theorem Guard.Faces.passes_iff (t : g.tidy) (member : c ∈ g.claims) : g.passes c = true ↔ g.freeFor c reserved := by
  unfold Guard.passes Guard.freeFor
  rw [List.all_eq_true]
  refine forall_congr' fun d => imp_congr_right fun hd => ?_
  rw [← faces.reservedFor, ← t.open_iff (t.effective member d hd)]
  simp

end

/-! ## What a candidate taken makes of the claims -/

/-- A claim in the table that the first has become, waiting still. -/
def Guard.waitsAs (claims : List Claim) (c : Claim) (r : Reserving) (cells : Cell → Prop) : Prop :=
  ∃ d ∈ claims, c.keeps d ∧ d.phase = .waiting ∧ d.effective = c.effective ∧ d.reserving = r ∧
    ∀ e, e ∈ d.reserved ↔ cells e

section
variable (g : Guard) {c d : Claim}

theorem Guard.afterTry_granted (c : Claim) : g.afterTry c true c = c.granted := by
  simp [Guard.afterTry, Claim.afterGrant, Claim.granted]

theorem Guard.afterTry_low (low : c.priority ≠ 7) (d : Claim) : g.afterTry c false d = d := by
  simp [Guard.afterTry, low]

theorem Guard.afterTry_reserves (top : c.priority = 7) : g.afterTry c false c =
    { c with reserving := g.rankOf c, reserved := unionCells c.reserved (minusCells c.effective (g.keptFrom c)) } := by
  simp [Guard.afterTry, top, Guard.reservation]

theorem Guard.afterTry_other (differ : d.key ≠ c.key) : g.afterTry c false d = d := by
  simp [Guard.afterTry, Guard.reservation, differ]

/-- A junior becomes the senior when the senior is granted (R77). -/
theorem Guard.afterTry_succeeds (differ : d.key ≠ c.key) (opposed : d.arm = c.arm.other) : g.afterTry c true d =
    { d with reserving := d.reserving.succeeding c.reserving } := by
  unfold Guard.afterTry Claim.afterGrant Reserving.succeeding
  rw [if_pos rfl, if_neg differ]
  by_cases h : d.reserving = .junior ∧ c.reserving = .senior
  · rw [if_pos ⟨h.2, opposed, h.1⟩, if_pos h]
  · rw [if_neg fun e => h ⟨e.2.2, e.1⟩, if_neg h]

/-- A claim that does not reserve is left alone by the turn of another. -/
theorem Guard.afterTry_plain (differ : d.key ≠ c.key) (plain : d.reserving = .no) (passes : Bool) :
    g.afterTry c passes d = d := by
  cases passes with
  | false => exact g.afterTry_other differ
  | true => simp [Guard.afterTry, Claim.afterGrant, differ, plain]

end

end Sys2Proof.Machine

/-! # The turns of two candidates

The evaluation of one waiting claim of each arm is two turns, of `f` and then of `k` as the turn of `f` left it. What comes of
each turn is read off what its candidate faces. -/

namespace Sys2Proof.Machine

/-! ## A table with waiting claims of both arms, or of one -/

/-- One waiting claim of each arm, apart in what they reserve, beside held claims that reserve nothing. -/
structure Guard.Contest (g : Guard) (f k : Claim) : Prop where
  waiting : g.waitingClaims = [f, k] ∨ g.waitingClaims = [k, f]
  opposed : k.arm = f.arm.other
  held : ∀ c ∈ g.claims, c.phase = .held → c.reserving = .no
  plain : ∀ c ∈ g.claims, c.reserving = .no → c.reserved = []
  apart : ∀ d ∈ f.reserved, d ∉ k.reserved

/-- One waiting claim, beside held claims that reserve nothing. -/
structure Guard.Left (g : Guard) (k : Claim) : Prop where
  waiting : g.waitingClaims = [k]
  held : ∀ c ∈ g.claims, c.phase = .held → c.reserving = .no

theorem Guard.mem_waitingClaims {g : Guard} {c : Claim} : c ∈ g.waitingClaims ↔ c ∈ g.claims ∧ c.phase = .waiting := by
  rw [Guard.waitingClaims, List.mem_filter, Claim.isWaiting_iff]

theorem Guard.reservedFor_some {g : Guard} {d : Cell} {x : Arm} (h : g.reservedFor d = some x) :
    ∃ c ∈ g.claims, d ∈ c.reserved ∧ c.arm = x := by
  obtain ⟨c, found, arm⟩ := Option.map_eq_some_iff.1 h
  exact ⟨c, List.mem_of_find?_eq_some found, by simpa using List.find?_some found, arm⟩

theorem Guard.reservedFor_isSome {g : Guard} {d : Cell} {c : Claim} (hc : c ∈ g.claims) (hd : d ∈ c.reserved) :
    ∃ x, g.reservedFor d = some x := by
  have found : (g.claims.find? fun k => d ∈ k.reserved).isSome = true := List.find?_isSome.2 ⟨c, hc, by simpa using hd⟩
  obtain ⟨k, e⟩ := Option.isSome_iff_exists.1 found
  exact ⟨k.arm, by rw [Guard.reservedFor, e]; rfl⟩

theorem Guard.reservingOf_some {g : Guard} {x : Arm} {c : Claim} (h : g.reservingOf x = some c) :
    c ∈ g.claims ∧ c.arm = x ∧ c.reserving ≠ .no :=
  ⟨List.mem_of_find?_eq_some h, by simpa using List.find?_some h⟩

theorem Guard.reservingOf_isSome {g : Guard} {c : Claim} (hc : c ∈ g.claims) (hr : c.reserving ≠ .no) :
    ∃ k, g.reservingOf c.arm = some k :=
  Option.isSome_iff_exists.1 (List.find?_isSome.2 ⟨c, hc, by simpa using hr⟩)

/-- A claim with reservations waits. -/
theorem Guard.tidy.waiting_of_reserved {g : Guard} (t : g.tidy) {c : Claim} (hc : c ∈ g.claims) {d : Cell}
    (hd : d ∈ c.reserved) : c.phase = .waiting :=
  Claim.waiting_of_not_held fun held => by
    rw [t.heldReserveNothing c hc held] at hd
    cases hd

section
variable {g : Guard} {f k : Claim}

theorem Guard.Contest.symm (s : g.Contest f k) : g.Contest k f :=
  ⟨s.waiting.symm, by rw [s.opposed]; cases f.arm <;> rfl, s.held, s.plain, fun d hk hf => s.apart d hf hk⟩

theorem Guard.Contest.mem_iff (s : g.Contest f k) {c : Claim} :
    (c ∈ g.claims ∧ c.phase = .waiting) ↔ c = f ∨ c = k := by
  rw [← Guard.mem_waitingClaims]
  rcases s.waiting with e | e
  · simp [e]
  · simp [e, or_comm]

theorem Guard.Contest.arm_ne (s : g.Contest f k) : f.arm ≠ k.arm := by
  rw [s.opposed]
  exact (Arm.other_ne _).symm

theorem Guard.Contest.key_ne (s : g.Contest f k) : k.key ≠ f.key := fun e => s.arm_ne (congrArg ClaimKey.arm e).symm

theorem Guard.Contest.first (s : g.Contest f k) : f ∈ g.claims ∧ f.phase = .waiting := s.mem_iff.2 (.inl rfl)

theorem Guard.Contest.second (s : g.Contest f k) : k ∈ g.claims ∧ k.phase = .waiting := s.mem_iff.2 (.inr rfl)

/-- Of the claims of an arm, one alone reserves. -/
theorem Guard.Contest.reserving_iff (s : g.Contest f k) {c : Claim} (hc : c ∈ g.claims) (arm : c.arm = k.arm)
    (hr : c.reserving ≠ .no) : c = k := by
  have waits : c.phase = .waiting := Claim.waiting_of_not_held fun held => hr (s.held c hc held)
  rcases s.mem_iff.1 ⟨hc, waits⟩ with rfl | rfl
  · exact absurd arm s.arm_ne
  · rfl

theorem Guard.Contest.faces (s : g.Contest f k) (t : g.tidy) :
    g.Faces f k.reserving (· ∈ k.reserved) (· ∈ k.effective) where
  reservedFor d := by
    rw [← s.opposed]
    constructor
    · intro h
      obtain ⟨c, hc, hd, arm⟩ := Guard.reservedFor_some h
      rcases s.mem_iff.1 ⟨hc, t.waiting_of_reserved hc hd⟩ with rfl | rfl
      · exact absurd arm s.arm_ne
      · exact hd
    · intro hd
      obtain ⟨x, h⟩ := Guard.reservedFor_isSome s.second.1 hd
      obtain ⟨c, hc, own, rfl⟩ := Guard.reservedFor_some h
      rcases s.mem_iff.1 ⟨hc, t.waiting_of_reserved hc own⟩ with rfl | rfl
      · exact absurd hd (s.apart d own)
      · exact h
  reservingOf := by
    rw [← s.opposed]
    by_cases no : k.reserving = .no
    · refine .inl ⟨no, ?_, fun d hd => ?_⟩
      · cases found : g.reservingOf k.arm with
        | none => rfl
        | some c =>
          obtain ⟨hc, arm, hr⟩ := Guard.reservingOf_some found
          rw [s.reserving_iff hc arm hr] at hr
          exact absurd no hr
      · rw [s.plain k s.second.1 no] at hd
        cases hd
    · obtain ⟨c, found⟩ := Guard.reservingOf_isSome s.second.1 no
      obtain ⟨hc, arm, hr⟩ := Guard.reservingOf_some found
      rw [s.reserving_iff hc arm hr] at found
      exact .inr ⟨k, found, rfl, no, fun _ => Iff.rfl, fun _ => Iff.rfl⟩

theorem Guard.Left.second (s : g.Left k) : k ∈ g.claims ∧ k.phase = .waiting := by
  rw [← Guard.mem_waitingClaims, s.waiting]
  exact List.mem_singleton.2 rfl

theorem Guard.Left.eq (s : g.Left k) {c : Claim} (hc : c ∈ g.claims) (waits : c.phase = .waiting) : c = k := by
  have member := Guard.mem_waitingClaims.2 ⟨hc, waits⟩
  rw [s.waiting] at member
  exact List.mem_singleton.1 member

theorem Guard.Left.faces (s : g.Left k) (t : g.tidy) : g.Faces k .no (fun _ => False) fun _ => False where
  reservedFor d := by
    refine iff_false_intro fun h => ?_
    obtain ⟨c, hc, hd, arm⟩ := Guard.reservedFor_some h
    rw [s.eq hc (t.waiting_of_reserved hc hd)] at arm
    exact Arm.other_ne _ arm.symm
  reservingOf := by
    refine .inl ⟨rfl, ?_, fun _ => id⟩
    cases found : g.reservingOf k.arm.other with
    | none => rfl
    | some c =>
      obtain ⟨hc, arm, hr⟩ := Guard.reservingOf_some found
      rw [s.eq hc (Claim.waiting_of_not_held fun held => hr (s.held c hc held))] at arm
      exact absurd arm.symm (Arm.other_ne _)

end

/-! ## A turn -/

/-- What the turn of a candidate leaves of the guard. -/
structure Guard.Turn (g : Guard) (c : Claim) (passes : Bool) (h : Guard) : Prop where
  claims : h.claims = g.claims.map (g.afterTry c passes)
  lastGranted : h.lastGranted = if passes then c.arm else g.lastGranted
  tidy : h.tidy
  poisoned : h.poisoned = g.poisoned
  fences : h.fences = g.fences
  retired : ∀ n, h.isRetired n = g.isRetired n
  owned : ∀ x d, h.ownedBy x d = true ↔ g.ownedBy x d = true ∨ (passes = true ∧ x = c.arm ∧ d ∈ c.effective)

/-- Whom a cell is owned by once the records of a grant are written. -/
theorem Guard.grantRecords_ownedBy {g : Guard} (differ : g.keysDiffer) {c : Claim} (hc : c ∈ g.claims)
    (waits : c.phase = .waiting) (x : Arm) (d : Cell) :
    (g.grantRecords c).ownedBy x d = true ↔ g.ownedBy x d = true ∨ (x = c.arm ∧ d ∈ c.effective) := by
  have held : (g.grantRecords c).heldBy x d = true ↔ g.heldBy x d = true ∨ (x = c.arm ∧ d ∈ c.effective) := by
    rw [Guard.heldBy_iff, Guard.heldBy_iff, Guard.grantRecords_claims]
    constructor
    · rintro ⟨b, hb, hp, arm, hd⟩
      rcases Guard.mem_onClaim differ hc hb with rfl | ⟨hb, -⟩
      · exact .inr ⟨arm.symm, hd⟩
      · exact .inl ⟨b, hb, hp, arm, hd⟩
    · rintro (⟨b, hb, hp, arm, hd⟩ | ⟨arm, hd⟩)
      · refine ⟨b, List.mem_map.2 ⟨b, hb, if_neg fun e => ?_⟩, hp, arm, hd⟩
        rw [differ.eq hb hc e, waits] at hp
        cases hp
      · exact ⟨c.granted, List.mem_map.2 ⟨c, hc, if_pos rfl⟩, rfl, arm.symm, hd⟩
  rw [Guard.ownedBy_iff, Guard.ownedBy_iff, held, Guard.mem_grantRecords_vacate]
  tauto

section
variable {ev : Event} {c : Claim} (differ : ev.guard.keysDiffer) (member : c ∈ ev.guard.claims)
  (waits : c.phase = .waiting) (passes : Bool)

/-- What a candidate taken leaves of the records, claims aside. -/
theorem Event.tried_records : (ev.tried c passes).guard.poisoned = ev.guard.poisoned ∧
    (ev.tried c passes).guard.fences = ev.guard.fences ∧ ∀ n, (ev.tried c passes).guard.isRetired n = ev.guard.isRetired n := by
  unfold Event.tried
  split
  · obtain ⟨h, ⟨same, -⟩, e⟩ := ev.guard.grant_eq c
    have records : (ev.grant c).guard.records = (ev.guard.grantRecords c).records := by
      rw [Event.grant_guard, Guard.signal_records, Guard.signal_records, e, Guard.reindex_records, same]
    refine ⟨?_, ?_, fun n => ?_⟩
    · rw [Guard.poisoned_of_records records, Guard.grantRecords_poisoned]
    · rw [Guard.fences_of_records records, Guard.grantRecords_fences]
    · rw [Guard.isRetired_of_grid (Guard.grid_of_records records), Guard.isRetired, Guard.grantRecords_sections]
      rfl
  · split
    · have records := Guard.reindex_records (ev.guard.onClaim c.key fun k => { k with
        reserving := ev.guard.rankOf c, reserved := unionCells c.reserved (minusCells c.effective (ev.guard.keptFrom c)) })
        (unionCells c.reserved (minusCells c.effective (ev.guard.keptFrom c)))
      exact ⟨(Guard.poisoned_of_records records).trans rfl, (Guard.fences_of_records records).trans rfl,
        fun n => by
          rw [Event.onGuard_guard, Guard.reserve, Guard.isRetired_of_grid (Guard.grid_of_records records)]
          rfl⟩
    · exact ⟨rfl, rfl, fun _ => rfl⟩

include waits in
theorem Event.tried_ownedBy (t : ev.guard.tidy) (member : c ∈ ev.guard.claims) (x : Arm) (d : Cell) :
    (ev.tried c passes).guard.ownedBy x d = true ↔
      ev.guard.ownedBy x d = true ∨ (passes = true ∧ x = c.arm ∧ d ∈ c.effective) := by
  unfold Event.tried
  cases passes with
  | true =>
    obtain ⟨h, ⟨same, -⟩, e⟩ := ev.guard.grant_eq c
    have records : (ev.grant c).guard.records = (ev.guard.grantRecords c).records := by
      rw [Event.grant_guard, Guard.signal_records, Guard.signal_records, e, Guard.reindex_records, same]
    rw [if_pos rfl, Guard.ownedBy_of_records records, Guard.grantRecords_ownedBy t.keysDiffer member waits]
    simp
  | false =>
    rw [if_neg Bool.false_ne_true]
    simp only [Bool.false_eq_true, false_and, or_false]
    split
    · have held := Guard.heldBy_onWaiting t member waits (fun k => { k with
        reserving := ev.guard.rankOf c, reserved := unionCells c.reserved (minusCells c.effective (ev.guard.keptFrom c)) })
        waits x d
      rw [Event.onGuard_guard, Guard.reserve, Guard.ownedBy_of_records (Guard.reindex_records _ _), Guard.ownedBy,
        Guard.ownedBy, held, Guard.onClaim_arm]
    · rfl

end

theorem Guard.isRetired_drawn (g : Guard) (m n : Nat) : (g.drawn m).isRetired n = g.isRetired n := rfl

section
variable {ev : Event} (good : ev.guard.foretoldGood) (touched : ev.touched = []) (t : ev.guard.tidy) {c : Claim}
  (member : c ∈ ev.guard.claims) (waits : c.phase = .waiting)
include good touched t member waits

/-- With good reads a candidate taken makes its turn. -/
theorem Event.takeCandidate_turn (reads : (ev.takeCandidate c.key).guard.reads = ev.guard.reads) :
    ev.guard.Turn c (ev.guard.passes c) (ev.takeCandidate c.key).guard := by
  have tidy := Event.takeCandidate_tidy t (t.waits member waits)
  obtain ⟨n, took⟩ := Event.takeCandidate_tried good touched (t.keysDiffer.claim? member) reads
  rw [took] at tidy ⊢
  have drawn : (ev.drawn n).guard.tidy := Guard.SameTray.tidy (g := ev.guard) ⟨rfl, rfl⟩ t
  obtain ⟨poisoned, fences, retired⟩ := Event.tried_records (ev := ev.drawn n) (c := c) (ev.guard.passes c)
  exact ⟨Event.tried_claims _ _ _, Event.tried_lastGranted _ _ _, tidy, poisoned, fences, retired,
    Event.tried_ownedBy (ev := ev.drawn n) waits _ drawn member⟩

end

section
variable {g h : Guard} {c : Claim} {passes : Bool} (turn : g.Turn c passes h)
include turn

theorem Guard.Turn.mem {d : Claim} (hd : d ∈ g.claims) : g.afterTry c passes d ∈ h.claims := by
  rw [turn.claims]
  exact List.mem_map_of_mem hd

theorem Guard.Turn.mem_iff {d : Claim} : d ∈ h.claims ↔ ∃ b ∈ g.claims, g.afterTry c passes b = d := by
  rw [turn.claims, List.mem_map]

/-- No claim comes to wait. -/
theorem Guard.Turn.waitingClaims :
    h.waitingClaims = (g.waitingClaims.map (g.afterTry c passes)).filter Claim.isWaiting := by
  unfold Guard.waitingClaims
  rw [turn.claims, List.filter_map, List.filter_map, List.filter_filter]
  refine congrArg _ (List.filter_congr fun d _ => ?_)
  have kept := (g.afterTry_kept c passes d).2.2
  rw [Bool.eq_iff_iff, Bool.and_eq_true, Function.comp, Claim.isWaiting_iff, Claim.isWaiting_iff]
  exact ⟨fun w => ⟨w, kept w⟩, And.left⟩

theorem Guard.Turn.clearTo_iff (x : Arm) (d : Cell) (opposed : x = c.arm.other) :
    h.clearTo x d ↔ g.clearTo x d ∧ ¬(passes = true ∧ d ∈ c.effective) := by
  have others := turn.owned x.other d
  have own := turn.owned x d
  have ne : x ≠ c.arm := opposed ▸ Arm.other_ne _
  have same : x.other = c.arm := by rw [opposed]; cases c.arm <;> rfl
  unfold Guard.clearTo
  rw [turn.poisoned, turn.fences, turn.retired, own, ← Bool.not_eq_true, others, ← Bool.not_eq_true]
  simp only [ne, same, false_and, and_false, or_false, true_and]
  exact ⟨fun ⟨free, rest⟩ => ⟨⟨Bool.eq_false_iff.2 fun m => free (.inl m), rest⟩, fun m => free (.inr m)⟩,
    fun ⟨⟨free, rest⟩, m⟩ => ⟨fun e => e.elim (Bool.eq_false_iff.1 free) m, rest⟩⟩

theorem Guard.Turn.freeFor_iff {d : Claim} (opposed : d.arm = c.arm.other) (barred : Cell → Prop) :
    h.freeFor d barred ↔ g.freeFor d fun e => barred e ∨ (passes = true ∧ e ∈ c.effective) := by
  unfold Guard.freeFor
  refine forall_congr' fun e => imp_congr_right fun _ => ?_
  rw [turn.clearTo_iff d.arm e opposed]
  tauto

/-- A candidate that is free is granted. -/
theorem Guard.Turn.granted (granted : passes = true) (member : c ∈ g.claims) : c.granted ∈ h.claims := by
  have image := turn.mem member
  rwa [granted, Guard.afterTry_granted] at image

theorem Guard.Turn.low (waits : passes = false) (low : c.priority ≠ 7) {d : Claim} (hd : d ∈ g.claims) : d ∈ h.claims := by
  have image := turn.mem hd
  rwa [waits, Guard.afterTry_low _ low] at image

theorem Guard.Turn.reserves {rank : Reserving} {reserved effective : Cell → Prop} (faces : g.Faces c rank reserved effective)
    (waits : passes = false) (top : c.priority = 7) (member : c ∈ g.claims) (phase : c.phase = .waiting) :
    Guard.waitsAs h.claims c (c.reserving.ranked rank) (c.reserves rank reserved effective) := by
  have image := turn.mem member
  rw [waits, Guard.afterTry_reserves _ top] at image
  exact ⟨_, image, ⟨rfl, rfl, rfl, rfl, rfl, rfl, id⟩, phase, rfl, faces.rankOf, faces.mem_reservation⟩

end

end Sys2Proof.Machine

/-! # What two turns come to

`f` is granted, or reserves, or is left as it is; `k` then faces what `f` has become. -/

namespace Sys2Proof.Machine

/-- `f` comes before `k` (R70, R72). -/
def Guard.precedes (g : Guard) (f k : Claim) : Prop :=
  k.priority < f.priority ∨ (f.priority = k.priority ∧ (f.waitStart < k.waitStart ∨
    (f.waitStart = k.waitStart ∧ g.lastGranted ≠ f.arm)))

theorem Guard.precedes.le {g : Guard} {f k : Claim} (p : g.precedes f k) : k.priority ≤ f.priority := by
  rcases p with h | ⟨h, -⟩ <;> omega

/-- What becomes of both where the first is free: it is granted. -/
def Guard.SettledFree (g h : Guard) (f k : Claim) : Prop :=
  f.granted ∈ h.claims ∧
    (g.freeFor k (· ∈ f.effective) → k.granted ∈ h.claims ∧ h.lastGranted = k.arm) ∧
    (¬g.freeFor k (· ∈ f.effective) → h.lastGranted = f.arm ∧
      (k.priority < 7 → Guard.waitsAs h.claims k (k.reserving.succeeding f.reserving) (· ∈ k.reserved)) ∧
      (k.priority = 7 → Guard.waitsAs h.claims k ((k.reserving.succeeding f.reserving).ranked .no)
        fun e => e ∈ k.reserved ∨ e ∈ k.effective))

/-- What becomes of both where the first, below priority 7, is not free: it is left as it is. -/
def Guard.SettledLow (g h : Guard) (f k : Claim) : Prop :=
  (g.freeFor k (· ∈ f.reserved) → k.granted ∈ h.claims ∧ h.lastGranted = k.arm ∧
    Guard.waitsAs h.claims f (f.reserving.succeeding k.reserving) (· ∈ f.reserved)) ∧
  (¬g.freeFor k (· ∈ f.reserved) → h.lastGranted = g.lastGranted ∧
    Guard.waitsAs h.claims f f.reserving (· ∈ f.reserved) ∧ Guard.waitsAs h.claims k k.reserving (· ∈ k.reserved))

/-- What becomes of both where the first, at priority 7, is not free: it reserves. -/
def Guard.SettledTop (g h : Guard) (f k : Claim) : Prop :=
  let r := f.reserving.ranked k.reserving
  let reserved := f.reserves k.reserving (· ∈ k.reserved) (· ∈ k.effective)
  (g.freeFor k reserved → k.granted ∈ h.claims ∧ h.lastGranted = k.arm ∧
    Guard.waitsAs h.claims f (r.succeeding k.reserving) reserved) ∧
  (¬g.freeFor k reserved → h.lastGranted = g.lastGranted ∧ Guard.waitsAs h.claims f r reserved ∧
    (k.priority < 7 → Guard.waitsAs h.claims k k.reserving (· ∈ k.reserved)) ∧
    (k.priority = 7 → Guard.waitsAs h.claims k (k.reserving.ranked r) (k.reserves r reserved (· ∈ f.effective))))

/-- What an evaluation makes of the two candidates. -/
def Guard.Settled (g h : Guard) (f k : Claim) : Prop :=
  (g.freeFor f (· ∈ k.reserved) → g.SettledFree h f k) ∧
  (¬g.freeFor f (· ∈ k.reserved) → f.priority < 7 → g.SettledLow h f k) ∧
  (¬g.freeFor f (· ∈ k.reserved) → f.priority = 7 → g.SettledTop h f k)

theorem Guard.waitsAs_self {claims : List Claim} {c : Claim} (member : c ∈ claims) (waits : c.phase = .waiting) :
    Guard.waitsAs claims c c.reserving (· ∈ c.reserved) :=
  ⟨c, member, c.keeps_refl, waits, rfl, rfl, fun _ => Iff.rfl⟩

theorem Guard.waitsAs.congr {claims : List Claim} {c : Claim} {r : Reserving} {p q : Cell → Prop}
    (w : Guard.waitsAs claims c r p) (e : ∀ d, p d ↔ q d) : Guard.waitsAs claims c r q := by
  obtain ⟨d, hd, keeps, waits, effective, rank, cells⟩ := w
  exact ⟨d, hd, keeps, waits, effective, rank, fun x => (cells x).trans (e x)⟩

theorem Guard.freeFor_congr {g : Guard} {c : Claim} {p q : Cell → Prop} (e : ∀ d, p d ↔ q d) :
    g.freeFor c p ↔ g.freeFor c q :=
  forall_congr' fun d => imp_congr_right fun _ => and_congr Iff.rfl (not_congr (e d))

/-- A claim whose seniority alone has changed. -/
def Claim.ranking (c : Claim) (r : Reserving) : Claim := { c with reserving := r }

section
variable {g h : Guard} {f k : Claim} (t : g.tidy) (s : g.Contest f k)
include t s

/-- After the first is granted the second is left. -/
theorem Guard.Contest.left (turn : g.Turn f true h) : h.Left (k.ranking (k.reserving.succeeding f.reserving)) := by
  have granted := g.afterTry_granted f
  have second : g.afterTry f true k = k.ranking _ := g.afterTry_succeeds s.key_ne s.opposed
  have held : f.granted.isWaiting = false := rfl
  have waits : ∀ r, (k.ranking r).isWaiting = true := fun r => Claim.isWaiting_iff.2 s.second.2
  constructor
  · rw [turn.waitingClaims]
    rcases s.waiting with e | e
    · simp [e, granted, second, held, waits]
    · simp [e, granted, second, held, waits]
  · intro d hd phase
    obtain ⟨b, hb, rfl⟩ := turn.mem_iff.1 hd
    by_cases w : b.phase = .waiting
    · rcases s.mem_iff.1 ⟨hb, w⟩ with rfl | rfl
      · rw [granted]
        rfl
      · rw [second] at phase
        exact absurd (s.second.2.symm.trans phase) fun e => Phase.noConfusion e
    · have was : b.phase = .held := by cases p : b.phase <;> simp_all
      have ne : b.key ≠ f.key := fun e => w (t.keysDiffer.eq hb s.first.1 e ▸ s.first.2)
      rw [g.afterTry_plain ne (s.held b hb was)]
      exact s.held b hb was

/-- After a turn that does not grant the first, the two wait as before, the first perhaps reserving. -/
theorem Guard.Contest.kept (turn : g.Turn f false h) {f' : Claim} (image : g.afterTry f false f = f')
    (waits : f'.phase = .waiting) (arm : f'.arm = f.arm) (plain : f'.reserving = .no → f'.reserved = [])
    (apart : ∀ d ∈ f'.reserved, d ∉ k.reserved) : h.Contest f' k := by
  have second : g.afterTry f false k = k := g.afterTry_other s.key_ne
  have others : ∀ d ∈ h.claims, d = f' ∨ d ∈ g.claims := by
    intro d hd
    obtain ⟨b, hb, rfl⟩ := turn.mem_iff.1 hd
    by_cases e : b.key = f.key
    · rw [t.keysDiffer.eq hb s.first.1 e]
      exact .inl image
    · rw [g.afterTry_other e]
      exact .inr hb
  refine ⟨?_, s.opposed.trans (by rw [arm]), fun d hd phase => ?_, fun d hd no => ?_, apart⟩
  · have first : f'.isWaiting = true := Claim.isWaiting_iff.2 waits
    have still : k.isWaiting = true := Claim.isWaiting_iff.2 s.second.2
    rw [turn.waitingClaims]
    rcases s.waiting with e | e
    · simp [e, image, second, first, still]
    · simp [e, image, second, first, still]
  · rcases others d hd with rfl | hd
    · rw [waits] at phase
      cases phase
    · exact s.held d hd phase
  · rcases others d hd with rfl | hd
    · exact plain no
    · exact s.plain d hd no

/-- The first is granted exactly where it is free. -/
theorem Guard.Contest.passes_iff : g.passes f = true ↔ g.freeFor f (· ∈ k.reserved) :=
  (s.faces t).passes_iff t s.first.1

theorem Guard.Contest.passes_false (barred : ¬g.freeFor f (· ∈ k.reserved)) : g.passes f = false :=
  Bool.eq_false_iff.2 fun p => barred ((s.passes_iff t).1 p)

omit t in
/-- The second, taken with the first still waiting, is granted where it is free; the first succeeds it then, and stays as it
is otherwise. -/
theorem Guard.Contest.second_granted (turn : g.Turn k true h) :
    k.granted ∈ h.claims ∧ h.lastGranted = k.arm ∧
      Guard.waitsAs h.claims f (f.reserving.succeeding k.reserving) (· ∈ f.reserved) := by
  refine ⟨turn.granted rfl s.second.1, turn.lastGranted, ?_⟩
  have image := turn.mem s.first.1
  rw [g.afterTry_succeeds s.symm.key_ne s.symm.opposed] at image
  exact ⟨_, image, f.keeps_refl, s.first.2, rfl, rfl, fun _ => Iff.rfl⟩

theorem Guard.Contest.second_waits (turn : g.Turn k false h) :
    h.lastGranted = g.lastGranted ∧ Guard.waitsAs h.claims f f.reserving (· ∈ f.reserved) ∧
      (k.priority < 7 → Guard.waitsAs h.claims k k.reserving (· ∈ k.reserved)) ∧
      (k.priority = 7 → Guard.waitsAs h.claims k (k.reserving.ranked f.reserving)
        (k.reserves f.reserving (· ∈ f.reserved) (· ∈ f.effective))) := by
  have image := turn.mem s.first.1
  rw [g.afterTry_other s.symm.key_ne] at image
  exact ⟨turn.lastGranted, Guard.waitsAs_self image s.first.2,
    fun low => Guard.waitsAs_self (turn.low rfl (Nat.ne_of_lt low) s.second.1) s.second.2,
    fun top => turn.reserves (s.symm.faces t) rfl top s.second.1 s.second.2⟩

end

/-! ## The two turns together -/

/-- The turns of both candidates, one after the other. -/
structure Guard.Turns (g : Guard) (f k : Claim) (mid h : Guard) : Prop where
  first : g.Turn f (g.passes f) mid
  second : mid.Turn (g.afterTry f (g.passes f) k) (mid.passes (g.afterTry f (g.passes f) k)) h

section
variable {g mid h : Guard} {f k : Claim} (t : g.tidy) (s : g.Contest f k) (turns : g.Turns f k mid h)
include t s turns

theorem Guard.Turns.settledFree (free : g.freeFor f (· ∈ k.reserved)) : g.SettledFree h f k := by
  obtain ⟨first, second⟩ := turns
  rw [(s.passes_iff t).2 free] at first second
  have image : g.afterTry f true k = k.ranking _ := g.afterTry_succeeds s.key_ne s.opposed
  have left := s.left t first
  have granted : f.granted ∈ h.claims := by
    have kept := second.mem (first.granted rfl s.first.1)
    rwa [mid.afterTry_plain (by rw [image]; exact s.symm.key_ne) rfl] at kept
  rw [image] at second
  have faces := left.faces first.tidy
  have passes := (faces.passes_iff first.tidy left.second.1).trans
    (first.freeFor_iff (d := k.ranking _) s.opposed fun _ => False)
  simp only [true_and, false_or] at passes
  refine ⟨granted, fun open' => ?_, fun barred => ?_⟩
  · have p := passes.2 open'
    exact ⟨second.granted p left.second.1, by rw [second.lastGranted, p]; rfl⟩
  · have p := Bool.eq_false_iff.2 fun p => barred (passes.1 p)
    refine ⟨?_, fun low => ?_, fun top => ?_⟩
    · rw [second.lastGranted, p]
      exact first.lastGranted
    · exact Guard.waitsAs_self (c := k.ranking _) (second.low p (Nat.ne_of_lt low) left.second.1) left.second.2
    · refine Guard.waitsAs.congr (second.reserves faces p top left.second.1 left.second.2) fun d => ?_
      simp only [Claim.reserves, not_false_eq_true, and_false, and_true]
      rfl

theorem Guard.Turns.settledLow (p : g.precedes f k) (barred : ¬g.freeFor f (· ∈ k.reserved)) (low : f.priority < 7) :
    g.SettledLow h f k := by
  obtain ⟨first, second⟩ := turns
  rw [s.passes_false t barred] at first second
  have contest := s.kept t first (g.afterTry_low (Nat.ne_of_lt low) f) s.first.2 rfl (s.plain f s.first.1) s.apart
  rw [g.afterTry_other s.key_ne] at second
  have passes := (contest.symm.passes_iff first.tidy).trans (first.freeFor_iff s.opposed _)
  simp only [Bool.false_eq_true, false_and, or_false] at passes
  constructor
  · intro free
    rw [passes.2 free] at second
    exact contest.second_granted second
  · intro closed
    rw [Bool.eq_false_iff.2 fun p => closed (passes.1 p)] at second
    obtain ⟨last, one, other, -⟩ := contest.second_waits first.tidy second
    exact ⟨last.trans first.lastGranted, one, other (Nat.lt_of_le_of_lt p.le low)⟩

theorem Guard.Turns.settledTop (barred : ¬g.freeFor f (· ∈ k.reserved)) (top : f.priority = 7) : g.SettledTop h f k := by
  obtain ⟨first, second⟩ := turns
  rw [s.passes_false t barred] at first second
  have faces := s.faces t
  have image := g.afterTry_reserves top
  have cells := faces.mem_reservation
  rw [faces.rankOf] at image
  generalize unionCells f.reserved (minusCells f.effective (g.keptFrom f)) = reserved at image cells
  have contest := s.kept t first image s.first.2 rfl (fun no => absurd no (Reserving.ranked_ne _ _)) fun d hd hk => by
    rcases (cells d).1 hd with own | ⟨-, others, -⟩
    · exact s.apart d own hk
    · exact others hk
  rw [g.afterTry_other s.key_ne] at second
  have passes := (contest.symm.passes_iff first.tidy).trans (first.freeFor_iff s.opposed _)
  simp only [Bool.false_eq_true, false_and, or_false] at passes
  replace passes := passes.trans (Guard.freeFor_congr cells)
  have same : ∀ {r}, Guard.waitsAs h.claims
      { f with reserving := f.reserving.ranked k.reserving, reserved := reserved } r (· ∈ reserved) →
      Guard.waitsAs h.claims f r (f.reserves k.reserving (· ∈ k.reserved) (· ∈ k.effective)) := fun w => w.congr cells
  constructor
  · intro free
    rw [passes.2 free] at second
    obtain ⟨granted, last, one⟩ := contest.second_granted second
    exact ⟨granted, last, same one⟩
  · intro closed
    rw [Bool.eq_false_iff.2 fun p => closed (passes.1 p)] at second
    obtain ⟨last, one, low, full⟩ := contest.second_waits first.tidy second
    refine ⟨last.trans first.lastGranted, same one, low, fun top => (full top).congr fun d => ?_⟩
    unfold Claim.reserves
    exact or_congr Iff.rfl (and_congr Iff.rfl (and_congr (not_congr (cells d)) Iff.rfl))

theorem Guard.Turns.settled (p : g.precedes f k) : g.Settled h f k :=
  ⟨turns.settledFree t s, turns.settledLow t s p, turns.settledTop t s⟩

end

end Sys2Proof.Machine

/-! # The evaluation of two candidates -/

namespace Sys2Proof.Machine

/-! ## Whose turn it is -/

/-- Of an arm's waiting claims the first in the table is the eligible one (R69). -/
theorem Guard.eligible_iff (g : Guard) (x : Arm) (c : Claim) :
    g.eligible x = some c ↔ (c.phase = .waiting ∧ c.arm = x) ∧
      ∃ before after, g.claims = before ++ c :: after ∧ ∀ d ∈ before, ¬(d.phase = .waiting ∧ d.arm = x) := by
  unfold Guard.eligible
  rw [List.find?_eq_some_iff_append]
  have waits : ∀ d : Claim, (d.isWaiting && decide (d.arm = x)) = true ↔ d.phase = .waiting ∧ d.arm = x := fun d => by
    simp [Claim.isWaiting]
  simp only [waits, Bool.not_eq_true', ← Bool.not_eq_true]

/-- The only waiting claim of its arm is the eligible one. -/
theorem Guard.eligible_of_only {g : Guard} {c : Claim} (member : c ∈ g.waitingClaims)
    (only : ∀ d ∈ g.waitingClaims, d.arm = c.arm → d = c) : g.eligible c.arm = some c := by
  rw [Guard.eligible_eq]
  have found : (g.waitingClaims.find? fun d => d.arm = c.arm).isSome = true := List.find?_isSome.2 ⟨c, member, by simp⟩
  obtain ⟨d, e⟩ := Option.isSome_iff_exists.1 found
  rw [e, only d (List.mem_of_find?_eq_some e) (by simpa using List.find?_some e)]

theorem Guard.precedes.takenBefore {g : Guard} {f k : Claim} (p : g.precedes f k) : g.takenBefore f k = true := by
  unfold Guard.takenBefore
  rcases p with h | ⟨same, h | ⟨start, last⟩⟩
  · simp [h]
  · simp [same, h]
  · simp [same, start, last]

theorem Guard.precedes.not_takenBefore {g : Guard} {f k : Claim} (p : g.precedes f k) (opposed : k.arm = f.arm.other) :
    g.takenBefore k f = false := by
  unfold Guard.takenBefore
  rcases p with h | ⟨same, h | ⟨start, last⟩⟩
  · simp [Nat.ne_of_lt h, Nat.le_of_lt h]
  · simp [same, Nat.le_of_lt h, Ne.symm (Nat.ne_of_lt h)]
  · have turn : g.lastGranted = k.arm := by
      rw [opposed]
      exact (Arm.eq_or_eq_other f.arm g.lastGranted).resolve_left last
    simp [same, start, turn]

theorem Guard.Contest.eligible {g : Guard} {f k : Claim} (s : g.Contest f k) : g.eligible f.arm = some f := by
  refine Guard.eligible_of_only (Guard.mem_waitingClaims.2 s.first) fun d hd arm => ?_
  rcases s.mem_iff.1 (Guard.mem_waitingClaims.1 hd) with rfl | rfl
  · rfl
  · exact absurd arm.symm s.arm_ne

theorem Guard.candidateOf_nil {g : Guard} {x : Arm} {c : Claim} (h : g.eligible x = some c) :
    g.candidateOf [] x = some c := by
  rw [Guard.candidateOf_eq h, if_neg List.not_mem_nil]

/-- The claim that comes first is the first candidate. -/
theorem Guard.Contest.nextCandidate {g : Guard} {f k : Claim} (s : g.Contest f k) (p : g.precedes f k) :
    g.nextCandidate [] = some f := by
  have first := Guard.candidateOf_nil s.eligible
  have second := Guard.candidateOf_nil s.symm.eligible
  rw [s.opposed] at second
  unfold Guard.nextCandidate
  cases arm : f.arm with
  | A =>
    rw [arm] at first second
    rw [first, show g.candidateOf [] .B = some k from second]
    exact if_pos p.takenBefore
  | B =>
    rw [arm] at first second
    rw [first, show g.candidateOf [] .A = some k from second]
    dsimp only
    rw [p.not_takenBefore s.opposed, if_neg Bool.false_ne_true]

/-- With the first taken, the waiting claim of the other arm is the next candidate. -/
theorem Guard.nextCandidate_other {g : Guard} {j : ClaimKey} {k : Claim} (opposed : k.arm = j.arm.other)
    (member : k ∈ g.waitingClaims) (others : ∀ d ∈ g.waitingClaims, d.key = j ∨ d = k) :
    g.nextCandidate [j] = some k := by
  have ne : k.arm ≠ j.arm := opposed ▸ Arm.other_ne _
  have own : g.eligible k.arm = some k := by
    refine Guard.eligible_of_only member fun d hd arm => (others d hd).resolve_left fun e => ne ?_
    rw [← arm, ← e]
    rfl
  have taken : g.candidateOf [j] k.arm.other = none := by
    cases e : g.eligible k.arm.other with
    | none => exact Guard.candidateOf_none e _
    | some d =>
      rw [Guard.candidateOf_eq e, if_pos]
      rw [Guard.eligible_eq] at e
      have arm : d.arm = k.arm.other := by simpa using List.find?_some e
      rcases others d (List.mem_of_find?_eq_some e) with key | rfl
      · exact List.mem_singleton.2 key
      · exact absurd arm.symm (Arm.other_ne _)
  rw [Guard.nextCandidate_of_one taken, Guard.candidateOf_eq own, if_neg]
  exact fun e => ne (congrArg ClaimKey.arm (List.mem_singleton.1 e))

/-! ## The rounds -/

/-- An evaluation in course: what it needs to go on to the next turn. -/
structure Event.Underway (ev : Event) : Prop where
  good : ev.guard.foretoldGood
  touched : ev.touched = []
  tidy : ev.guard.tidy

/-- A round with good reads is the turn of its candidate. -/
theorem Event.evaluateRounds_turn {n : Nat} {ev : Event} (u : ev.Underway) {taken : List ClaimKey} {c : Claim}
    (next : ev.guard.nextCandidate taken = some c)
    (reads : (ev.evaluateRounds (n + 1) taken).guard.reads = ev.guard.reads) :
    ∃ e : Event, ev.evaluateRounds (n + 1) taken = e.evaluateRounds n (taken ++ [c.key]) ∧
      ev.guard.Turn c (ev.guard.passes c) e.guard ∧ e.Underway ∧ e.guard.reads = ev.guard.reads := by
  obtain ⟨member, waits⟩ := Guard.nextCandidate_some next
  have first : (ev.unformed.takeCandidate c.key).guard.reads = ev.unformed.guard.reads := by
    refine Nat.le_antisymm (Nat.le_trans ?_ reads.le) (Event.takeCandidate_reads_le ev.unformed c.key)
    rw [Event.evaluateRounds, next]
    exact Event.evaluateRounds_reads_le n (ev.unformed.takeCandidate c.key) _
  have turn := Event.takeCandidate_turn (ev := ev.unformed) u.good u.touched u.tidy member waits first
  obtain ⟨steady, -⟩ := Event.takeCandidate_holdsOn (ev := ev.unformed) u.good u.touched first
  obtain ⟨m, took⟩ := Event.takeCandidate_tried (ev := ev.unformed) u.good u.touched
    (u.tidy.keysDiffer.claim? member) first
  refine ⟨ev.unformed.takeCandidate c.key, ?_, turn, ⟨steady.good, steady.touched.trans u.touched, turn.tidy⟩, first⟩
  rw [took, Event.evaluateRounds_next next took]

section
variable {g mid h : Guard} {f k : Claim} (s : g.Contest f k) {p : Bool} (first : g.Turn f p mid)
include s first

/-- What waits after the turn of the first. -/
theorem Guard.Contest.waiting_of_turn {d : Claim} (hd : d ∈ mid.waitingClaims) :
    d.key = f.key ∨ d = g.afterTry f p k := by
  rw [first.waitingClaims] at hd
  obtain ⟨b, hb, rfl⟩ := List.mem_map.1 (List.mem_filter.1 hd).1
  rcases s.mem_iff.1 (Guard.mem_waitingClaims.1 hb) with rfl | rfl
  · exact .inl (g.afterTry_kept _ p _).1
  · exact .inr rfl

theorem Guard.Contest.second_of_turn : g.afterTry f p k ∈ mid.waitingClaims := by
  refine Guard.mem_waitingClaims.2 ⟨first.mem s.second.1, ?_⟩
  cases p with
  | true =>
    rw [g.afterTry_succeeds s.key_ne s.opposed]
    exact s.second.2
  | false =>
    rw [g.afterTry_other s.key_ne]
    exact s.second.2

theorem Guard.Contest.nextCandidate_of_turn : mid.nextCandidate [f.key] = some (g.afterTry f p k) := by
  have arm : (g.afterTry f p k).arm = k.arm := congrArg ClaimKey.arm (g.afterTry_kept f p k).1
  exact Guard.nextCandidate_other (arm.trans s.opposed) (s.second_of_turn first) fun d hd => s.waiting_of_turn first hd

theorem Guard.Contest.none_of_turns {q : Bool} (second : mid.Turn (g.afterTry f p k) q h) :
    h.nextCandidate [f.key, (g.afterTry f p k).key] = none := by
  refine Guard.nextCandidate_taken fun d hd => ?_
  rw [second.waitingClaims] at hd
  obtain ⟨b, hb, rfl⟩ := List.mem_map.1 (List.mem_filter.1 hd).1
  rw [(mid.afterTry_kept _ q b).1]
  rcases s.waiting_of_turn first hb with key | rfl
  · simp [key]
  · simp

end

/-- The whole evaluation is the turns of both. -/
theorem Event.evaluateRounds_turns (n : Nat) {ev : Event} (u : ev.Underway) {f k : Claim} (s : ev.guard.Contest f k)
    (p : ev.guard.precedes f k) (reads : (ev.evaluateRounds (n + 2) []).guard.reads = ev.guard.reads) :
    ∃ mid, ev.guard.Turns f k mid (ev.evaluateRounds (n + 2) []).guard := by
  obtain ⟨e₁, rounds, first, u₁, reads₁⟩ := Event.evaluateRounds_turn u (s.nextCandidate p) reads
  rw [rounds, List.nil_append] at reads ⊢
  obtain ⟨e₂, rounds, second, -, -⟩ := Event.evaluateRounds_turn u₁ (s.nextCandidate_of_turn first) (reads.trans reads₁.symm)
  have ended := Event.evaluateRounds_over n (s.none_of_turns first second)
  rw [rounds.trans ended]
  exact ⟨e₁.guard, first, second⟩

/-! ## The event -/

@[simp] theorem Event.endPlan_lastGranted (ev : Event) (x : Arm) (i : SlotIx) :
    (ev.endPlan x i).guard.lastGranted = ev.guard.lastGranted := by
  unfold Event.endPlan
  split
  · split
    · rfl
    · exact Guard.onArm_lastGranted _ _ _
  · rfl

@[simp] theorem Event.endPlans_lastGranted (ev : Event) : ev.endPlans.guard.lastGranted = ev.guard.lastGranted := by
  have fold : ∀ (js : List (Arm × SlotIx)) (ev : Event),
      (js.foldl (fun ev j => ev.endPlan j.1 j.2) ev).guard.lastGranted = ev.guard.lastGranted := by
    intro js
    induction js with
    | nil => exact fun _ => rfl
    | cons j js ih => exact fun ev => (ih _).trans (ev.endPlan_lastGranted j.1 j.2)
  exact fold _ { ev with judged := [] }

@[simp] theorem Event.endDraining_lastGranted (ev : Event) :
    ev.endDraining.guard.lastGranted = ev.guard.lastGranted := by
  unfold Event.endDraining
  split <;> rfl

/-- What was settled depends on the claims and the last grant alone. -/
theorem Guard.Settled.congr {g h h' : Guard} {f k : Claim} (s : g.Settled h f k) (claims : h'.claims = h.claims)
    (last : h'.lastGranted = h.lastGranted) : g.Settled h' f k := by
  unfold Guard.Settled Guard.SettledFree Guard.SettledLow Guard.SettledTop at s ⊢
  rw [claims, last]
  exact s

/-- With good reads an event that calls for an evaluation settles the contest it finds. -/
theorem Event.finish_settled {ev : Event} (u : ev.Underway) (reached : ev.reached = []) (called : ev.evaluate = true)
    (mode : ev.guard.mode ≠ .init) (reads : ev.finish.guard.reads = ev.guard.reads) {f k : Claim}
    (s : ev.guard.Contest f k) (p : ev.guard.precedes f k) : ev.guard.Settled ev.finish.guard f k := by
  have evaluated := Nat.le_antisymm (reads ▸ ev.finish_reads_le) ev.evaluateIfCalled_reads_le
  obtain ⟨steady, -⟩ := Event.evaluateIfCalled_holdsOn u.good u.touched evaluated
  have rounds : ev.evaluateIfCalled = { ev.evaluateRounds 4000 [] with evaluate := false, reformed := [] } := by
    unfold Event.evaluateIfCalled Event.runEvaluation
    rw [if_pos called, if_neg mode]
  have guard : ev.evaluateIfCalled.guard = (ev.evaluateRounds (3998 + 2) []).guard := by rw [rounds]
  rw [guard] at evaluated
  obtain ⟨mid, turns⟩ := Event.evaluateRounds_turns 3998 u s p evaluated
  rw [← guard] at turns
  have none : ev.evaluateIfCalled.afterReply.reached = [] := steady.reached.trans reached
  have settled := turns.settled u.tidy s p
  refine settled.congr ?_ ?_
  · unfold Event.finish
    rw [Event.dealWithSections_none 8 none, Event.endDraining_claims, Event.endPlans_claims]
    rfl
  · unfold Event.finish
    rw [Event.dealWithSections_none 8 none, Event.endDraining_lastGranted, Event.endPlans_lastGranted]
    rfl

end Sys2Proof.Machine

/-! # The order of the candidates at START and at RELEASE (O22) -/

namespace Sys2Proof.Machine

/-! ## One contest in two guards -/

/-- The guards show the same claims in the same order, the same map and the same last grant. -/
structure Guard.SameContest (g h : Guard) : Prop where
  claims : h.claims = g.claims
  lastGranted : h.lastGranted = g.lastGranted
  records : h.records = g.records

section
variable {g h : Guard} (same : g.SameContest h)
include same

theorem Guard.SameContest.freeFor (c : Claim) (barred : Cell → Prop) : h.freeFor c barred = g.freeFor c barred := by
  unfold Guard.freeFor Guard.clearTo
  simp only [Guard.ownedBy_of_records same.records, Guard.poisoned_of_records same.records,
    Guard.fences_of_records same.records, Guard.isRetired_of_grid (Guard.grid_of_records same.records)]

theorem Guard.SameContest.contest {f k : Claim} (s : g.Contest f k) : h.Contest f k := by
  refine ⟨?_, s.opposed, same.claims ▸ s.held, same.claims ▸ s.plain, s.apart⟩
  unfold Guard.waitingClaims
  rw [same.claims]
  exact s.waiting

theorem Guard.SameContest.precedes {f k : Claim} (p : g.precedes f k) : h.precedes f k := by
  unfold Guard.precedes
  rw [same.lastGranted]
  exact p

theorem Guard.SameContest.settled {after : Guard} {f k : Claim} (s : h.Settled after f k) : g.Settled after f k := by
  unfold Guard.Settled Guard.SettledFree Guard.SettledLow Guard.SettledTop at s ⊢
  simp only [same.freeFor, same.lastGranted] at s
  exact s

end

/-- An event with good reads settles the contest of a guard that its own shows. -/
theorem Event.finish_contest {g : Guard} {ev : Event} (same : g.SameContest ev.guard) (u : ev.Underway)
    (reached : ev.reached = []) (called : ev.evaluate = true) (mode : ev.guard.mode ≠ .init)
    (reads : ev.finish.guard.reads = ev.guard.reads) {f k : Claim} (s : g.Contest f k) (p : g.precedes f k) :
    g.Settled ev.finish.guard f k :=
  same.settled (Event.finish_settled u reached called mode reads (same.contest s) (same.precedes p))

/-! ## START -/

theorem Guard.startCheck_none {g : Guard} (x : g.cfg.x0 + (g.cfg.nc : Int) * g.cfg.pitch ≤ 32767)
    (y : g.cfg.y0 + (g.cfg.nr : Int) * g.cfg.pitch ≤ 32767) (a : g.cfg.a.tMin < g.cfg.a.tGap)
    (b : g.cfg.b.tMin < g.cfg.b.tGap) (active : g.someActive) : g.startCheck = none := by
  have some : sectionNumbers.any g.isActive = true := List.any_eq_true.2 active
  unfold Guard.startCheck
  rw [if_neg (Int.not_lt.2 x), if_neg (Int.not_lt.2 y), if_neg (Nat.not_le.2 a), if_neg (Nat.not_le.2 b), some]
  rfl

/-- START taken in DRAINING, or in SETUP with every check passed, enters GUARD. -/
theorem Guard.serveStart_enters {g : Guard}
    (h : g.mode = .draining ∨ (g.mode = .setup ∧ g.cfg.x0 + (g.cfg.nc : Int) * g.cfg.pitch ≤ 32767 ∧
      g.cfg.y0 + (g.cfg.nr : Int) * g.cfg.pitch ≤ 32767 ∧ g.cfg.a.tMin < g.cfg.a.tGap ∧ g.cfg.b.tMin < g.cfg.b.tGap ∧
      g.someActive)) : g.serveStart = g.enterGuard := by
  unfold Guard.serveStart
  rcases h with mode | ⟨mode, x, y, a, b, active⟩
  · rw [mode]
  · rw [mode, Guard.startCheck_none x y a b active]

theorem Guard.enterGuard_settles {g : Guard} (t : g.tidy) (good : g.foretoldGood)
    (reads : g.enterGuard.1.finish.guard.reads = g.reads) {f k : Claim} (s : g.Contest f k) (p : g.precedes f k) :
    g.Settled g.enterGuard.1.finish.guard f k :=
  Event.finish_contest (g := g) (ev := g.enterGuard.1) ⟨rfl, rfl, rfl⟩
    ⟨good, rfl, Guard.SameTray.tidy (g := g) ⟨rfl, rfl⟩ t⟩ rfl rfl (fun mode => Mode.noConfusion mode) reads s p

/-! ## RELEASE -/

theorem releaseOutcome_some {n : Nat} (h : n ≤ 1) : ∃ o, releaseOutcome n = some o := by
  match n, h with
  | 0, _ => exact ⟨_, rfl⟩
  | 1, _ => exact ⟨_, rfl⟩

theorem Guard.serveArm_release {g : Guard} (mode : g.mode ≠ .init) (x : Arm) (number outcome : Byte) :
    g.serveArm x 0x23#8 [number, outcome] = g.serveRelease x [number, outcome] := by
  change (if g.mode = .init then _ else _) = _
  rw [if_neg mode]
  rfl

/-- An arm request served at once, its event and its reply. -/
theorem State.arm_served {s : State} {x : Arm} (h : s.servesArm x) {kind : Byte} (tag : Byte) {p : List Byte}
    (hk : isArmKind kind = true) {ev : Event} {r : Reply} (e : s.guard.serveArm x kind p = (ev, r)) :
    s.whenPowered (fun s => s.armArrival x ⟨kind, tag, p⟩) = .next ((s.armReplied x kind tag r).conclude ev) := by
  rw [State.whenPowered_on h.1.1, State.armArrival_served h.2 kind tag p hk, e]

theorem Guard.serveRelease_held {g : Guard} {x : Arm} {number outcome : Byte} {o : EntryOutcome} {c : Claim}
    (ends : releaseOutcome outcome.toNat = some o) (found : g.claim? ⟨x, number⟩ = some c) (held : c.phase = .held) :
    g.serveRelease x [number, outcome] = (g.event.endHeld c.key o, .ok [number]) := by
  have kept : (g.claim? ⟨x, number⟩).filter Claim.isHeld = some c := by
    rw [found]
    exact Option.filter_some_pos (Claim.isHeld_iff.2 held)
  unfold Guard.serveRelease
  rw [show u8 [number, outcome] 1 = outcome.toNat from rfl, ends]
  dsimp only
  rw [show ([number, outcome] : List Byte).getD 0 0#8 = number from rfl, kept]

theorem Event.settleEntry_lastGranted (ev : Event) (c : Claim) (o : EntryOutcome) :
    (ev.settleEntry c o).guard.lastGranted = ev.guard.lastGranted := by
  unfold Event.settleEntry
  split
  · rfl
  · simp [Event.tally, Guard.signal]

/-- A cell that no claim holds once the claim is gone is among those it keeps alone. -/
theorem Guard.mem_ownCellsOf_of_free {g : Guard} {c : Claim} {d : Cell} (hd : d ∈ c.effective)
    (free : ∀ x, (g.removeClaim c.key).ownedBy x d = false) : d ∈ g.ownCellsOf c := by
  refine Guard.mem_ownCellsOf.2 ⟨hd, fun k hk phase arm hkd => ?_⟩
  by_contra ne
  have owned : (g.removeClaim c.key).ownedBy k.arm d = true := Guard.ownedBy_iff.2
    (.inl (Guard.heldBy_iff.2 ⟨k, List.mem_filter.2 ⟨hk, decide_eq_true ne⟩, phase, rfl, hkd⟩))
  rw [free] at owned
  cases owned

section
variable {ev : Event} (good : ev.guard.foretoldGood) (touched : ev.touched = []) (t : ev.guard.tidy)
  {c : Claim} (member : c ∈ ev.guard.claims) (held : c.phase = .held)
  (clear : (ev.guard.arm c.arm).calculator.zone = .clear) {o : EntryOutcome}
  (reads : (ev.endHeld c.key o).guard.reads = ev.guard.reads)
include good touched t member clear reads

/-- With good reads a held claim of a CLEAR arm that ends leaves the table, and its own cells are let go. -/
theorem Event.endHeld_letsGo : ∃ n, ev.endHeld c.key o =
    (((ev.drawn n).onGuard fun g => g.removeClaim c.key).settleEntry c o).letGo (ev.guard.ownCellsOf c) := by
  have found := t.keysDiffer.claim? member
  have read : (ev.readCells .handover (ev.guard.ownCellsOf c)).1.guard.reads = ev.guard.reads := by
    refine Nat.le_antisymm ?_ (ev.readCells_reads_le _ _)
    rw [← reads]
    unfold Event.endHeld
    rw [found]
    dsimp only
    split
    · exact Nat.le_refl _
    · split <;> simp
  obtain ⟨n, e⟩ := Event.readCells_drawn good touched read
  have again : (ev.drawn n).guard.claim? c.key = some c := found
  have zone : ((((ev.drawn n).onGuard fun g => g.removeClaim c.key).settleEntry c o).guard.arm
      c.arm).calculator.zone = .clear := by
    obtain ⟨-, calculator, -⟩ :=
      (Event.settleEntry_change ((ev.drawn n).onGuard fun g => g.removeClaim c.key) c o).armKeeps c.arm
    rw [calculator, Event.onGuard_guard, Guard.removeClaim_arms, show (ev.drawn n).guard = ev.guard.drawn n from rfl,
      Guard.drawn_arm]
    exact clear
  refine ⟨n, ?_⟩
  unfold Event.endHeld
  rw [found]
  dsimp only
  rw [e, again]
  dsimp only
  rw [if_pos zone]
  rfl

theorem Event.endHeld_sameContest : (ev.guard.removeClaim c.key).SameContest (ev.endHeld c.key o).guard := by
  obtain ⟨n, e⟩ := Event.endHeld_letsGo good touched t member clear reads
  have settled := (((ev.drawn n).onGuard fun g => g.removeClaim c.key).settleEntry_same c o).1
  rw [e]
  unfold Event.letGo
  rw [Event.callEvaluation_guard, Event.onGuard_guard]
  refine ⟨?_, ?_, ?_⟩
  · rw [Guard.reindex_claims, Event.settleEntry_claims]
    rfl
  · rw [Guard.reindex_lastGranted, Event.settleEntry_lastGranted]
    rfl
  · rw [Guard.reindex_records, settled]
    rfl

include held in
/-- The release of a cell that becomes FREE calls for an evaluation (R71). -/
theorem Event.endHeld_calls {d : Cell} (hd : d ∈ c.effective)
    (free : ∀ x, (ev.guard.removeClaim c.key).ownedBy x d = false) (fence : d ∉ ev.guard.fences)
    (retired : ev.guard.isRetired d.sec = false) (poisoned : d ∉ ev.guard.poisoned) :
    (ev.endHeld c.key o).evaluate = true := by
  have same := Event.endHeld_sameContest good touched t member clear reads
  have tidy : (ev.endHeld c.key o).guard.tidy := Event.endHeld_tidy t (fun d hd e => t.keysDiffer.eq hd member e ▸ held) o
  have grid := t.effective member d hd
  have owner : (ev.guard.removeClaim c.key).ownerOf d = none := (Guard.ownerOf_none_iff .A d).2 ⟨free .A, free .B⟩
  have isFree : ((ev.endHeld c.key o).guard.entryOf d).isFree = true := by
    rw [tidy.agrees d (t.inStore grid), Guard.derive_of_records same.records, 
      Guard.derive_eq (g := ev.guard.removeClaim c.key) grid, owner]
    have active : (ev.guard.removeClaim c.key).isRetired d.sec = false := retired
    simp [Entry.isFree, active, poisoned, fence]
  obtain ⟨n, e⟩ := Event.endHeld_letsGo good touched t member clear reads
  rw [e] at isFree ⊢
  have some : (ev.guard.ownCellsOf c).any (fun d => (((((ev.drawn n).onGuard fun g => g.removeClaim c.key).settleEntry c
      o).guard.reindex (ev.guard.ownCellsOf c)).entryOf d).isFree) = true :=
    List.any_eq_true.2 ⟨d, Guard.mem_ownCellsOf_of_free hd free, isFree⟩
  exact (congrArg _ some).trans (Bool.or_true _)

end

section
variable {g : Guard} (t : g.tidy) {c : Claim} (member : c ∈ g.claims) (held : c.phase = .held)
  (clear : (g.arm c.arm).calculator.zone = .clear)
include t member held clear

/-- With good reads the release of a claim that frees a cell settles the contest of the others. -/
theorem Guard.released_settles (good : g.foretoldGood) (mode : g.mode ≠ .init) {o : EntryOutcome}
    (reads : (g.event.endHeld c.key o).finish.guard.reads = g.reads) {d : Cell} (hd : d ∈ c.effective)
    (free : ∀ x, (g.removeClaim c.key).ownedBy x d = false) (fence : d ∉ g.fences) (retired : g.isRetired d.sec = false)
    (poisoned : d ∉ g.poisoned) {f k : Claim} (s : (g.removeClaim c.key).Contest f k)
    (p : (g.removeClaim c.key).precedes f k) :
    (g.removeClaim c.key).Settled (g.event.endHeld c.key o).finish.guard f k := by
  have ended : (g.event.endHeld c.key o).guard.reads = g.reads :=
    Nat.le_antisymm (reads ▸ Nat.le_trans (Event.evaluateIfCalled_reads_le _) (Event.finish_reads_le _))
      (g.event.endHeld_reads_le c.key o)
  have steady := (Event.endHeld_quiet (ev := g.event) good rfl ended).steady
  have tidy : (g.event.endHeld c.key o).guard.tidy :=
    Event.endHeld_tidy (ev := g.event) t (fun d hd e => t.keysDiffer.eq hd member e ▸ held) o
  have change := g.event.endHeld_change c.key o
  refine Event.finish_contest (Event.endHeld_sameContest (ev := g.event) good rfl t member clear ended)
    ⟨steady.good, steady.touched, tidy⟩ steady.reached
    (Event.endHeld_calls (ev := g.event) good rfl t member held clear ended hd free fence retired poisoned) ?_
    (reads.trans ended.symm) s p
  exact change.mode_ne_init mode

end

/-- Settles O22: both commands end in an evaluation, whose two turns settle the contest. -/
theorem candidatesAreTakenInOrder : Obligations.CandidatesAreTakenInOrder := by
  unfold Obligations.CandidatesAreTakenInOrder
  intro contest
  refine ⟨fun s tag serves wf tray enters => ?_, fun s x tag number outcome c serves low found held clear wf tray
    freed => ?_, Guard.eligible_iff⟩
  · have t : s.guard.tidy := Guard.tidy_iff.2 ⟨wf, tray⟩
    have served : s.guard.serve s.link 0x02#8 [] = s.guard.enterGuard :=
      (Guard.serve_start _ serves.1.2 rfl).trans (Guard.serveStart_enters enters)
    refine ⟨_, State.supervisor_served serves tag rfl served, ⟨_, rfl⟩,
      fun good f k waiting opposed holds plain apart first => ?_⟩
    exact Guard.enterGuard_settles t good.1 good.2 ⟨waiting, opposed, holds, plain, apart⟩ first
  · have t : s.guard.tidy := Guard.tidy_iff.2 ⟨wf, tray⟩
    obtain ⟨member, key⟩ := Guard.claim?_some found
    obtain rfl : c.arm = x := congrArg ClaimKey.arm key
    obtain ⟨o, ends⟩ := releaseOutcome_some low
    have served := (Guard.serveArm_release serves.1.2 c.arm number outcome).trans (Guard.serveRelease_held ends found held)
    obtain ⟨d, hd, freeA, freeB, fence, retired, poisoned⟩ := freed
    have free : ∀ x, (s.guard.removeClaim c.key).ownedBy x d = false := fun x => by cases x; exacts [freeA, freeB]
    refine ⟨_, State.arm_served serves tag rfl served, ⟨_, rfl⟩,
      fun good f k waiting opposed holds plain apart first => ?_⟩
    exact Guard.released_settles t member held clear good.1 serves.1.2 good.2 hd free fence retired poisoned
      ⟨waiting, opposed, holds, plain, apart⟩ first

end Sys2Proof.Machine

/-! # A held claim that ends, with good reads

`Event.ended` is what `Event.endHeld` comes to once its cells are read; the lemmas after it say what it leaves of the table,
of the two arms and of the event. -/

namespace Sys2Proof.Machine

/-! ## An entry settled (R111) -/

/-- An arm once an entry of the given origin has its outcome. -/
def ArmState.settling (a : ArmState) (o : EntryOutcome) : Origin → ArmState
  | .supervisor => a
  | .plan i _ => (a.onPlan i (Plan.tally o)).signalled o.event 1

/-- The slot that the end of a claim has judged (R112). -/
def Claim.judges (c : Claim) : List (Arm × SlotIx) :=
  match c.origin with
  | .supervisor => []
  | .plan i _ => [(c.arm, i)]

theorem Event.settleEntry_eq (ev : Event) (c : Claim) (o : EntryOutcome) : ev.settleEntry c o =
    { ev with
      guard := ev.guard.onArm c.arm fun a => a.settling o c.origin
      judged := ev.judged ++ c.judges
      planLeft := ev.planLeft || c.isPlan } := by
  unfold Event.settleEntry Claim.judges Claim.isPlan
  cases c.origin with
  | supervisor =>
    have same : (ev.guard.onArm c.arm fun a => a.settling o .supervisor) = ev.guard := by cases c.arm <;> rfl
    simp [same]
  | plan i n =>
    dsimp only
    rw [Event.tally_eq, Bool.or_true]
    simp only [Guard.onArm_onArm]
    rfl

theorem ArmState.settling_calculator (a : ArmState) (o : EntryOutcome) (from_ : Origin) :
    (a.settling o from_).calculator = a.calculator := by
  cases from_ with
  | supervisor => rfl
  | plan i n => cases i <;> rfl

theorem ArmState.settling_vacate (a : ArmState) (o : EntryOutcome) (from_ : Origin) :
    (a.settling o from_).vacate = a.vacate := by
  cases from_ with
  | supervisor => rfl
  | plan i n => cases i <;> rfl

theorem ArmState.settling_slot (a : ArmState) (o : EntryOutcome) (i : SlotIx) (n : Nat) :
    (a.settling o (.plan i n)).slot i = (a.slot i).onPlan (Plan.tally o) := by
  unfold ArmState.settling
  rw [ArmState.signalled_slot, ArmState.onPlan, ArmState.slot_setSlot_eq, if_pos rfl]

/-- A counter of the outcome counts the entry of a PLAN claim. -/
theorem ArmState.settling_counter {a : ArmState} {o : EntryOutcome} {n : Nat}
    (h : (a.counters.selectable.get n).selection = o.event) (from_ : Origin) :
    ((a.settling o from_).counters.selectable.get n).value =
      if from_.inPlan then sat32 ((a.counters.selectable.get n).value + 1) else (a.counters.selectable.get n).value := by
  cases from_ with
  | supervisor => rfl
  | plan i m =>
    unfold ArmState.settling
    rw [ArmState.signalled_counter, Counter.signal_value, ArmState.onPlan, ArmState.setSlot_counters, if_pos h]
    rfl

theorem ArmState.settling_selection (a : ArmState) (o : EntryOutcome) (from_ : Origin) (n : Nat) :
    ((a.settling o from_).counters.selectable.get n).selection = (a.counters.selectable.get n).selection := by
  cases from_ with
  | supervisor => rfl
  | plan i m =>
    unfold ArmState.settling
    rw [ArmState.signalled_counter, Counter.signal_selection, ArmState.onPlan, ArmState.setSlot_counters]

/-! ## The end of a held claim (R88, R89) -/

/-- A held claim ended once its cells are read; `cells` are those that no other held claim of its arm keeps. -/
def Event.ended (ev : Event) (c : Claim) (o : EntryOutcome) (cells : CellSet) : Event :=
  let ev := (ev.onGuard fun g => g.removeClaim c.key).settleEntry c o
  if (ev.guard.arm c.arm).calculator.zone = .clear then ev.letGo cells
  else ev.onGuard fun g => (g.onVacate c.arm fun v => unionCells v cells).reindex cells

section
variable (ev : Event) (c : Claim) (o : EntryOutcome) (cells : CellSet)

theorem Event.ended_claims : (ev.ended c o cells).guard.claims = (ev.guard.removeClaim c.key).claims := by
  unfold Event.ended Event.letGo
  dsimp only
  split <;> simp [Guard.onVacate]

theorem Event.ended_mode : (ev.ended c o cells).guard.mode = ev.guard.mode := by
  unfold Event.ended Event.letGo
  dsimp only
  split <;> simp [Guard.onVacate, Event.settleEntry_eq]

/-- The entry is settled, and the cells join the vacate set of an arm that is not CLEAR. -/
theorem Event.ended_arm : (ev.ended c o cells).guard.arm c.arm =
    { (ev.guard.arm c.arm).settling o c.origin with
      vacate := if (ev.guard.arm c.arm).calculator.zone = .clear then (ev.guard.arm c.arm).vacate
        else unionCells (ev.guard.arm c.arm).vacate cells } := by
  have settled : (((ev.onGuard fun g => g.removeClaim c.key).settleEntry c o).guard.arm c.arm) =
      (ev.guard.arm c.arm).settling o c.origin := by
    rw [Event.settleEntry_eq, Guard.arm_onArm, Event.onGuard_guard, Guard.removeClaim_arm]
  have zone : (((ev.guard.arm c.arm).settling o c.origin).calculator.zone = .clear) =
      ((ev.guard.arm c.arm).calculator.zone = .clear) := by rw [ArmState.settling_calculator]
  have vacate := (ev.guard.arm c.arm).settling_vacate o c.origin
  unfold Event.ended Event.letGo
  dsimp only
  rw [settled]
  simp only [zone]
  split
  · rw [Event.callEvaluation_guard, Event.onGuard_guard, Guard.reindex_arm, settled, ← vacate]
  · rw [Event.onGuard_guard, Guard.reindex_arm, Guard.onVacate, Guard.arm_onArm, settled, ← vacate]

theorem Event.ended_arm_other : (ev.ended c o cells).guard.arm c.arm.other = ev.guard.arm c.arm.other := by
  unfold Event.ended Event.letGo
  dsimp only
  split <;> simp [Guard.onVacate, Event.settleEntry_eq]

theorem Event.ended_judged : (ev.ended c o cells).judged = ev.judged ++ c.judges := by
  unfold Event.ended Event.letGo
  dsimp only
  split <;> simp [Event.settleEntry_eq]

theorem Event.ended_planLeft : (ev.ended c o cells).planLeft = (ev.planLeft || c.isPlan) := by
  unfold Event.ended Event.letGo
  dsimp only
  split <;> simp [Event.settleEntry_eq]

theorem Event.ended_changes : (ev.ended c o cells).changes = ev.changes := by
  unfold Event.ended Event.letGo
  dsimp only
  split <;> simp

end

/-- What the end of a held claim reads, it reads of the cells that the claim keeps alone. -/
theorem Event.endHeld_reads {ev : Event} {c : Claim} {o : EntryOutcome} (found : ev.guard.claim? c.key = some c) :
    (ev.endHeld c.key o).guard.reads = (ev.readCells .handover (ev.guard.ownCellsOf c)).1.guard.reads := by
  unfold Event.endHeld
  rw [found]
  dsimp only
  split
  · rfl
  · split <;> simp

theorem Event.endHeld_drawn {ev : Event} (good : ev.guard.foretoldGood) (touched : ev.touched = []) {c : Claim}
    {o : EntryOutcome} (found : ev.guard.claim? c.key = some c)
    (reads : (ev.endHeld c.key o).guard.reads = ev.guard.reads) :
    ∃ n, ev.endHeld c.key o = (ev.drawn n).ended c o (ev.guard.ownCellsOf c) := by
  rw [Event.endHeld_reads found] at reads
  obtain ⟨n, drawn⟩ := Event.readCells_drawn good touched reads
  have again : (ev.drawn n).guard.claim? c.key = some c := found
  refine ⟨n, ?_⟩
  unfold Event.endHeld
  rw [found]
  dsimp only
  rw [drawn, again]
  rfl

/-! ## What an evaluation with good reads leaves of the plans -/

/-- The events that a grant signals (R85). -/
def CountEvent.ofGrants : CountEvent → Bool
  | .grants | .cellsExcluded => true
  | _ => false

/-- What is judged, every slot and whether it has a claim, and every counter stay but those that a grant signals. -/
structure Event.KeepsPlans (ev ev' : Event) : Prop where
  judged : ev'.judged = ev.judged
  slot : ∀ x i, (ev'.guard.arm x).slot i = (ev.guard.arm x).slot i
  claim : ∀ x i, ev'.guard.slotHasClaim x i = ev.guard.slotHasClaim x i
  counter : ∀ x n, ((ev.guard.arm x).counters.selectable.get n).selection.ofGrants = false →
    (ev'.guard.arm x).counters.selectable.get n = (ev.guard.arm x).counters.selectable.get n

theorem Event.KeepsPlans.refl (ev : Event) : ev.KeepsPlans ev := ⟨rfl, fun _ _ => rfl, fun _ _ => rfl, fun _ _ _ => rfl⟩

theorem Event.KeepsPlans.trans {a b c : Event} (h : a.KeepsPlans b) (k : b.KeepsPlans c) : a.KeepsPlans c where
  judged := k.judged.trans h.judged
  slot x i := (k.slot x i).trans (h.slot x i)
  claim x i := (k.claim x i).trans (h.claim x i)
  counter x n other := by
    have first := h.counter x n other
    exact (k.counter x n (first ▸ other)).trans first

theorem Event.drawn_keepsPlans (ev : Event) (n : Nat) : ev.KeepsPlans (ev.drawn n) where
  judged := rfl
  slot x i := congrArg (fun a : ArmState => a.slot i) (Guard.drawn_arm _ n x)
  claim _ _ := rfl
  counter x i _ := congrArg (fun a : ArmState => a.counters.selectable.get i) (Guard.drawn_arm _ n x)

theorem Counter.atGrant_other {k : Counter} (h : k.selection.ofGrants = false) (n : Nat) : k.atGrant n = k := by
  unfold Counter.atGrant
  split
  · rename_i e
    rw [e] at h
    cases h
  · rename_i e
    rw [e] at h
    cases h
  · rfl

theorem Event.tried_keepsPlans (ev : Event) (c : Claim) (passes : Bool) : ev.KeepsPlans (ev.tried c passes) where
  judged := by rw [Event.tried_rest]
  slot x i := (ev.tried_arm_kept c passes x).2 i
  claim x i := ev.tried_slotHasClaim c passes x i
  counter x n other := by
    by_cases own : x = c.arm
    · subst own
      rw [Event.tried_counter, Counter.atGrant_other other]
      exact ite_self _
    · have apart : (ev.tried c passes).guard.arm x = ev.guard.arm x := by
        rw [Event.tried_arm, Event.grant_arm, Guard.arm_onArm_eq, if_neg (Ne.symm own), Guard.onVacate,
          Guard.arm_onArm_eq, if_neg (Ne.symm own)]
        exact ite_self _
      rw [apart]

theorem Event.takeCandidate_keepsPlans {ev : Event} (good : ev.guard.foretoldGood) (touched : ev.touched = [])
    {k : ClaimKey} (reads : (ev.takeCandidate k).guard.reads = ev.guard.reads) : ev.KeepsPlans (ev.takeCandidate k) := by
  cases found : ev.guard.claim? k with
  | some c =>
    obtain ⟨n, took⟩ := Event.takeCandidate_tried good touched found reads
    rw [took]
    exact (ev.drawn_keepsPlans n).trans (Event.tried_keepsPlans _ c _)
  | none =>
    rw [Event.takeCandidate_reads] at reads
    obtain ⟨n, drawn⟩ := Event.testClaim_drawn 769 good touched reads
    unfold Event.takeCandidate
    dsimp only
    rw [drawn, show (ev.drawn n).guard.claim? k = none from found]
    exact ev.drawn_keepsPlans n

theorem Event.evaluateRounds_keepsPlans (n : Nat) {ev : Event} (good : ev.guard.foretoldGood) (touched : ev.touched = [])
    {taken : List ClaimKey} (reads : (ev.evaluateRounds n taken).guard.reads = ev.guard.reads) :
    ev.KeepsPlans (ev.evaluateRounds n taken) := by
  induction n generalizing ev taken with
  | zero => exact .refl ev
  | succ n ih =>
    unfold Event.evaluateRounds at reads ⊢
    split
    · exact .refl ev
    · rename_i b found
      rw [found] at reads
      dsimp only at reads ⊢
      have first := Nat.le_antisymm (reads ▸ Event.evaluateRounds_reads_le n _ _)
        (Event.takeCandidate_reads_le { ev with reformed := [] } b.key)
      obtain ⟨step, -⟩ := Event.takeCandidate_holdsOn (ev := { ev with reformed := [] }) good touched first
      obtain ⟨judged, slot, claim, counter⟩ :=
        Event.takeCandidate_keepsPlans (ev := { ev with reformed := [] }) good touched first
      exact Event.KeepsPlans.trans ⟨judged, slot, claim, counter⟩
        (ih step.good (step.touched.trans touched) (reads.trans first.symm))

theorem Event.evaluateIfCalled_keepsPlans {ev : Event} (good : ev.guard.foretoldGood) (touched : ev.touched = [])
    (reads : ev.evaluateIfCalled.guard.reads = ev.guard.reads) : ev.KeepsPlans ev.evaluateIfCalled := by
  unfold Event.evaluateIfCalled Event.runEvaluation at reads ⊢
  split
  · rename_i called
    rw [if_pos called] at reads
    split
    · exact ⟨rfl, fun _ _ => rfl, fun _ _ => rfl, fun _ _ _ => rfl⟩
    · rename_i mode
      rw [if_neg mode] at reads
      obtain ⟨judged, slot, claim, counter⟩ := Event.evaluateRounds_keepsPlans 4000 good touched reads
      exact ⟨judged, slot, claim, counter⟩
  · exact .refl ev

/-! ## Plans that end, and the end of DRAINING -/

/-- A FINISHING slot without a claim becomes EMPTY with PLAN_END posted; nothing else ends a plan (R112). -/
theorem Event.endPlan_cases (ev : Event) (x : Arm) (i : SlotIx) :
    (∃ p, (ev.guard.arm x).slot i = .finishing p ∧ ev.guard.slotHasClaim x i = false ∧ ev.endPlan x i =
      { ev with guard := ev.guard.onArm x fun a => a.setSlot i .empty, out := ev.out ++ planEnds (p.ended x i) }) ∨
    (∀ p, (ev.guard.arm x).slot i = .finishing p → ev.guard.slotHasClaim x i = true) ∧ ev.endPlan x i = ev := by
  cases slot : (ev.guard.arm x).slot i with
  | finishing p =>
    rw [Event.endPlan_finishing x i slot]
    cases claim : ev.guard.slotHasClaim x i with
    | true => exact .inr ⟨fun _ _ => rfl, rfl⟩
    | false => exact .inl ⟨p, rfl, rfl, rfl⟩
  | _ =>
    unfold Event.endPlan
    rw [slot]
    exact .inr ⟨fun _ finishing => Slot.noConfusion finishing, rfl⟩

theorem Event.endPlans_one {ev : Event} {x : Arm} {i : SlotIx} (h : ev.judged = [(x, i)]) :
    ev.endPlans = ({ ev with judged := [] } : Event).endPlan x i := by
  unfold Event.endPlans
  rw [h]
  rfl

theorem Event.endPlan_counters (ev : Event) (x : Arm) (i : SlotIx) (y : Arm) :
    ((ev.endPlan x i).guard.arm y).counters = (ev.guard.arm y).counters := by
  rcases ev.endPlan_cases x i with ⟨p, -, -, e⟩ | ⟨-, e⟩
  · rw [e]
    dsimp only
    rw [Guard.arm_onArm_eq]
    split
    · exact ArmState.setSlot_counters _ _ _
    · rfl
  · rw [e]

theorem Event.endPlans_counters (ev : Event) (y : Arm) : (ev.endPlans.guard.arm y).counters = (ev.guard.arm y).counters := by
  have fold : ∀ (js : List (Arm × SlotIx)) (ev : Event),
      ((js.foldl (fun ev j => ev.endPlan j.1 j.2) ev).guard.arm y).counters = (ev.guard.arm y).counters := by
    intro js
    induction js with
    | nil => exact fun _ => rfl
    | cons j js ih => exact fun ev => (ih _).trans (ev.endPlan_counters j.1 j.2 y)
  exact fold (keepLast ev.judged) { ev with judged := [] }

/-- Whether the end of the event ends DRAINING (R153). -/
def Event.drains (ev : Event) : Bool := ev.guard.mode = .draining && ev.planLeft && !ev.guard.hasPlanClaim

theorem Event.endDraining_eq (ev : Event) : ev.endDraining.guard.mode = (if ev.drains then .setup else ev.guard.mode) ∧
    ev.endDraining.out = ev.out ++ if ev.drains then [.toHost (.mode .setup .drainEnd)] else [] := by
  have same : (ev.guard.mode = .draining ∧ ev.planLeft ∧ !ev.guard.hasPlanClaim) ↔ ev.drains = true := by
    simp [Event.drains, and_assoc]
  unfold Event.endDraining
  simp only [same]
  split
  · exact ⟨rfl, rfl⟩
  · exact ⟨rfl, (List.append_nil _).symm⟩

end Sys2Proof.Machine

/-! # RELEASE (O34) -/

namespace Sys2Proof.Machine

/-! ## The end of an event that has drawn good findings alone -/

section
variable {ev : Event} (good : ev.guard.foretoldGood) (touched : ev.touched = []) (reached : ev.reached = [])
  (reads : ev.finish.guard.reads = ev.guard.reads)
include good touched reached reads

/-- The arms at the end of the event are those after the ends of plans, which come after an evaluation. -/
theorem Event.finish_plans :
    ∃ e, ev.KeepsPlans e ∧ ∀ x, ev.finish.guard.arm x = e.endPlans.guard.arm x := by
  have evaluated := Nat.le_antisymm (reads ▸ ev.finish_reads_le) ev.evaluateIfCalled_reads_le
  obtain ⟨steady, -⟩ := Event.evaluateIfCalled_holdsOn good touched evaluated
  obtain ⟨judged, slot, claim, counter⟩ := Event.evaluateIfCalled_keepsPlans good touched evaluated
  refine ⟨ev.evaluateIfCalled.afterReply, ⟨judged, slot, claim, counter⟩, fun x => ?_⟩
  unfold Event.finish
  rw [Event.endDraining_arm,
    Event.dealWithSections_none 8 (ev := ev.evaluateIfCalled.afterReply) (steady.reached.trans reached)]

theorem Event.finish_counter {x : Arm} {n : Nat}
    (other : ((ev.guard.arm x).counters.selectable.get n).selection.ofGrants = false) :
    (ev.finish.guard.arm x).counters.selectable.get n = (ev.guard.arm x).counters.selectable.get n := by
  obtain ⟨e, keeps, arm⟩ := Event.finish_plans good touched reached reads
  rw [arm, Event.endPlans_counters]
  exact keeps.counter x n other

/-- The one slot judged, FINISHING: it stays so with a claim in the table, and is EMPTY without. -/
theorem Event.finish_finishing {x : Arm} {i : SlotIx} {p : Plan} (judged : ev.judged = [(x, i)])
    (finishing : (ev.guard.arm x).slot i = .finishing p) : (ev.finish.guard.arm x).slot i =
      if ev.guard.slotHasClaim x i then .finishing p else .empty := by
  obtain ⟨e, keeps, arm⟩ := Event.finish_plans good touched reached reads
  rw [arm, Event.endPlans_one (keeps.judged.trans judged), Event.endPlan_finishing x i (p := p), ← keeps.claim]
  · split
    · exact (keeps.slot x i).trans finishing
    · dsimp only
      rw [Guard.arm_onArm, ArmState.slot_setSlot_eq, if_pos rfl]
  · exact (keeps.slot x i).trans finishing

end

/-- With no claim waiting and no section over its threshold, the ends of plans and of DRAINING are the end of an event. -/
theorem Event.finish_unwaited {ev : Event} (held : ∀ d ∈ ev.guard.claims, d.phase = .held) (reached : ev.reached = []) :
    ∃ called reformed, ev.finish =
      ({ ev with evaluate := called, reformed := reformed } : Event).afterReply.endPlans.endDraining := by
  have ended : ∀ e : Event, e.reached = [] →
      ((e.afterReply.dealWithSections 8).endPlans).endDraining = e.afterReply.endPlans.endDraining := fun e none => by
    rw [Event.dealWithSections_none 8 (ev := e.afterReply) none]
  unfold Event.finish
  rcases Event.evaluateIfCalled_idle held with e | e | e
  · exact ⟨ev.evaluate, ev.reformed, by rw [e, ended _ reached]⟩
  · exact ⟨false, ev.reformed, by rw [e, ended { ev with evaluate := false } reached]⟩
  · exact ⟨false, [], by rw [e, ended { ev with evaluate := false, reformed := [] } reached]⟩

/-! ## The claim released -/

/-- What an event has come to once it has ended a held claim, every read good and nothing else done. -/
structure Guard.Releases (g : Guard) (c : Claim) (o : EntryOutcome) (ev : Event) : Prop where
  good : ev.guard.foretoldGood
  touched : ev.touched = []
  reached : ev.reached = []
  late : ev.late = []
  out : ev.out = []
  claims : ev.guard.claims = (g.removeClaim c.key).claims
  mode : ev.guard.mode = g.mode
  arm : ev.guard.arm c.arm = { (g.arm c.arm).settling o c.origin with
    vacate := if (g.arm c.arm).calculator.zone = .clear then (g.arm c.arm).vacate
      else unionCells (g.arm c.arm).vacate (g.ownCellsOf c) }
  other : ev.guard.arm c.arm.other = g.arm c.arm.other
  judged : ev.judged = c.judges
  planLeft : ev.planLeft = c.isPlan

theorem Guard.releases {g : Guard} {c : Claim} {o : EntryOutcome} (good : g.foretoldGood)
    (found : g.claim? c.key = some c) (reads : (g.event.endHeld c.key o).guard.reads = g.reads) :
    g.Releases c o (g.event.endHeld c.key o) := by
  obtain ⟨⟨still, -, touched, reached, late⟩, out⟩ := Event.endHeld_quiet (ev := g.event) good rfl reads
  obtain ⟨n, e⟩ := Event.endHeld_drawn (ev := g.event) good rfl found reads
  have arm : ∀ x, (g.event.drawn n).guard.arm x = g.arm x := g.drawn_arm n
  refine ⟨still, touched, reached, late, out, ?_, ?_, ?_, ?_, ?_, ?_⟩ <;> rw [e]
  · exact Event.ended_claims _ _ _ _
  · exact Event.ended_mode _ _ _ _
  · rw [Event.ended_arm, arm]
    rfl
  · rw [Event.ended_arm_other, arm]
  · exact Event.ended_judged _ _ _ _
  · exact Event.ended_planLeft _ _ _ _

/-- The cells that the claim keeps alone are those in no other held claim of its arm. -/
theorem Guard.ownCellsOf_eq (g : Guard) (c : Claim) : g.ownCellsOf c = c.effective.filter fun d =>
    !((g.removeClaim c.key).claims.any fun k => k.isHeld && k.arm = c.arm && d ∈ k.effective) := by
  unfold Guard.ownCellsOf Guard.removeClaim
  refine List.filter_congr fun d _ => ?_
  rw [List.any_filter]
  refine congrArg (fun p => !g.claims.any p) (funext fun k => ?_)
  cases k.isHeld <;> cases decide (k.arm = c.arm) <;> simp

section
variable {g : Guard} {c : Claim} {o : EntryOutcome} {ev : Event} (r : g.Releases c o ev)
include r

theorem Guard.Releases.slot {i : SlotIx} {n : Nat} (origin : c.origin = .plan i n) :
    (ev.guard.arm c.arm).slot i = ((g.arm c.arm).slot i).onPlan (Plan.tally o) := by
  rw [r.arm, origin, ← ArmState.settling_slot _ o i n]
  cases i <;> rfl

theorem Guard.Releases.slotHasClaim (i : SlotIx) : ev.guard.slotHasClaim c.arm i =
    (g.removeClaim c.key).claims.any fun d => d.fromSlot c.arm i := by
  unfold Guard.slotHasClaim
  rw [r.claims]
  rfl

theorem Guard.Releases.vacate (d : Cell) : d ∈ (ev.guard.arm c.arm).vacate ↔
    d ∈ (g.arm c.arm).vacate ∨ (g.arm c.arm).calculator.zone ≠ .clear ∧ d ∈ g.ownCellsOf c := by
  rw [r.arm]
  dsimp only
  split
  · rename_i clear
    simp [clear]
  · rename_i other
    simp [other, mem_unionCells]

section
variable (reads : ev.finish.guard.reads = ev.guard.reads)
include reads

theorem Guard.Releases.active {i : SlotIx} {n : Nat} {q : Plan} (origin : c.origin = .plan i n)
    (active : (g.arm c.arm).slot i = .active q) : (ev.finish.guard.arm c.arm).slot i = .active (q.tally o) :=
  Event.finish_active r.good r.touched r.reached reads (by rw [r.slot origin, active]; rfl)

theorem Guard.Releases.finishing {i : SlotIx} {n : Nat} {q : Plan} (origin : c.origin = .plan i n)
    (finishing : (g.arm c.arm).slot i = .finishing q) : (ev.finish.guard.arm c.arm).slot i =
      if (g.removeClaim c.key).claims.any fun d => d.fromSlot c.arm i then .finishing (q.tally o) else .empty := by
  have judged : ev.judged = [(c.arm, i)] := by rw [r.judged, Claim.judges, origin]
  rw [← r.slotHasClaim]
  exact Event.finish_finishing r.good r.touched r.reached reads judged (by rw [r.slot origin, finishing]; rfl)

theorem Guard.Releases.counter {n : Nat} (counts : ((g.arm c.arm).counters.selectable.get n).selection = o.event) :
    ((ev.finish.guard.arm c.arm).counters.selectable.get n).value =
      if c.isPlan then sat32 (((g.arm c.arm).counters.selectable.get n).value + 1)
      else ((g.arm c.arm).counters.selectable.get n).value := by
  have settled : (ev.guard.arm c.arm).counters = ((g.arm c.arm).settling o c.origin).counters := by rw [r.arm]
  have selection := (ArmState.settling_selection (g.arm c.arm) o c.origin n).trans counts
  rw [Event.finish_counter r.good r.touched r.reached reads, settled, ArmState.settling_counter counts]
  · rfl
  · rw [settled, selection]
    cases o <;> rfl

end

end

/-- PLAN_END where the claim released is the last of a FINISHING slot (R112). -/
def Guard.releaseEnds (g : Guard) (c : Claim) (o : EntryOutcome) : List Posted :=
  match c.origin with
  | .supervisor => []
  | .plan i _ =>
    match (g.arm c.arm).slot i with
    | .finishing q =>
      if (g.removeClaim c.key).claims.any fun d => d.fromSlot c.arm i then [] else planEnds ((q.tally o).ended c.arm i)
    | _ => []

/-- Whether the claim released is the last PLAN claim in DRAINING (R153). -/
def Guard.releaseDrains (g : Guard) (c : Claim) : Bool :=
  g.mode = .draining && c.isPlan && !(g.removeClaim c.key).claims.any Claim.isPlan

/-- The slot of the claim released is the only one that can end. -/
theorem Guard.Releases.endPlans {g : Guard} {c : Claim} {o : EntryOutcome} {ev : Event} (r : g.Releases c o ev) {e : Event}
    (guard : e.guard = ev.guard) (judged : e.judged = c.judges) :
    e.endPlans.out = e.out ++ g.releaseEnds c o ∧ e.endPlans.planLeft = e.planLeft ∧
      e.endPlans.guard.mode = e.guard.mode ∧ e.endPlans.guard.arm c.arm.other = e.guard.arm c.arm.other := by
  unfold Guard.releaseEnds
  cases origin : c.origin with
  | supervisor =>
    rw [Event.endPlans_none (judged.trans (by rw [Claim.judges, origin]))]
    exact ⟨(List.append_nil _).symm, rfl, rfl, rfl⟩
  | plan i n =>
    have slot := r.slot origin
    have claims := r.slotHasClaim i
    rw [← guard] at slot claims
    rw [Event.endPlans_one (judged.trans (by rw [Claim.judges, origin]))]
    dsimp only
    rw [← claims]
    rcases ({ e with judged := [] } : Event).endPlan_cases c.arm i with ⟨p, finishing, claim, ended⟩ | ⟨claim, kept⟩
    · rw [slot] at finishing
      rw [ended, claim]
      refine ⟨?_, rfl, Guard.onArm_mode _ _ _, Guard.arm_onArm_other _ _ _⟩
      cases was : (g.arm c.arm).slot i with
      | finishing q =>
        rw [was] at finishing
        cases finishing
        rfl
      | _ =>
        rw [was] at finishing
        cases finishing
    · rw [kept]
      refine ⟨?_, rfl, rfl, rfl⟩
      cases was : (g.arm c.arm).slot i with
      | finishing q =>
        rw [was] at slot
        dsimp only
        rw [if_pos (show e.guard.slotHasClaim c.arm i = true from claim _ slot)]
        exact (List.append_nil _).symm
      | _ => exact (List.append_nil _).symm

/-- With no claim waiting, the release is all that comes of the event but for the ends of the slot's plan and of DRAINING. -/
theorem Guard.Releases.finish {g : Guard} {c : Claim} {o : EntryOutcome} {ev : Event} (r : g.Releases c o ev)
    (held : ∀ d ∈ (g.removeClaim c.key).claims, d.phase = .held) :
    ev.finish.guard.claims = (g.removeClaim c.key).claims ∧
    (ev.finish.guard.arm c.arm).vacate = (ev.guard.arm c.arm).vacate ∧
    ev.finish.guard.arm c.arm.other = g.arm c.arm.other ∧
    ev.finish.guard.mode = (if g.releaseDrains c then .setup else g.mode) ∧
    ev.finish.out = g.releaseEnds c o ++ if g.releaseDrains c then [.toHost (.mode .setup .drainEnd)] else [] := by
  obtain ⟨called, reformed, e⟩ := Event.finish_unwaited (r.claims ▸ held) r.reached
  have before : ({ ev with evaluate := called, reformed := reformed } : Event).afterReply.out = [] := by
    unfold Event.afterReply
    dsimp only
    rw [r.out, r.late]
    rfl
  generalize start : ({ ev with evaluate := called, reformed := reformed } : Event).afterReply = b at e before
  have guard : b.guard = ev.guard := start ▸ rfl
  have judged : b.judged = c.judges := start ▸ r.judged
  have left : b.planLeft = c.isPlan := start ▸ r.planLeft
  obtain ⟨out, planLeft, mode, other⟩ := r.endPlans guard judged
  obtain ⟨drainedMode, drainedOut⟩ := b.endPlans.endDraining_eq
  have drains : b.endPlans.drains = g.releaseDrains c := by
    unfold Event.drains Guard.releaseDrains Guard.hasPlanClaim
    rw [mode, planLeft, left, Event.endPlans_claims, guard, r.mode, r.claims]
  rw [e, Event.endDraining_claims, Event.endDraining_arm, Event.endDraining_arm, Event.endPlans_claims, drainedMode,
    drainedOut, drains, out, before, mode, other, guard, r.mode, r.other, r.claims]
  refine ⟨rfl, ?_, rfl, rfl, rfl⟩
  rw [← guard]
  exact (Event.endPlans_moves (may := fun _ => False) b c.arm).vacate_eq id id

/-! ## The request -/

/-- The outcome that a byte of RELEASE names. -/
theorem releaseOutcome_eq {outcome : Byte} (low : outcome.toNat ≤ 1) :
    releaseOutcome outcome.toNat = some (if outcome = 0#8 then .picked else .missed) := by
  have zero : outcome = 0#8 ↔ outcome.toNat = 0 := BitVec.toNat_inj.symm
  rcases Nat.le_one_iff_eq_zero_or_eq_one.1 low with e | e
  · rw [if_pos (zero.2 e), e]
    rfl
  · have other : outcome ≠ 0#8 := fun h => by
      rw [zero.1 h] at e
      cases e
    rw [if_neg other, e]
    rfl

theorem releaseOutcome_none {n : Nat} (high : 1 < n) : releaseOutcome n = none := by
  match n, high with
  | n + 2, _ => rfl

/-- A byte above 1 names no outcome. -/
theorem Guard.serveRelease_range {g : Guard} {x : Arm} {number outcome : Byte} (high : 1 < outcome.toNat) :
    g.serveRelease x [number, outcome] = g.answer (.refuse .range) := by
  unfold Guard.serveRelease
  rw [show u8 [number, outcome] 1 = outcome.toNat from rfl, releaseOutcome_none high]

/-- A number that names no held claim. -/
theorem Guard.serveRelease_notFound {g : Guard} {x : Arm} {number outcome : Byte} (low : outcome.toNat ≤ 1)
    (waits : ∀ c, g.claim? ⟨x, number⟩ = some c → c.phase = .waiting) :
    g.serveRelease x [number, outcome] = g.answer (.refuse .notFound) := by
  have none : (g.claim? ⟨x, number⟩).filter Claim.isHeld = none := Option.filter_eq_none_iff.2 fun c found => by
    simp [Claim.isHeld, waits c found]
  unfold Guard.serveRelease
  rw [show u8 [number, outcome] 1 = outcome.toNat from rfl, releaseOutcome_eq low]
  dsimp only
  rw [show ([number, outcome] : List Byte).getD 0 0#8 = number from rfl, none]

/-- Settles O34: what the event has come to when the claim has left is `Guard.Releases`; its end is
`Event.finish_stays` for the other claims and `Guard.Releases.finish` where none of them waits. -/
theorem releaseEndsHeldClaim : Obligations.ReleaseEndsHeldClaim := by
  unfold Obligations.ReleaseEndsHeldClaim
  intro s x tag number outcome serves
  have arrives := Guard.serveArm_release serves.1.2 x number outcome
  refine ⟨fun high => ?_, fun low => ⟨fun waits => ?_, fun c found held => ?_⟩⟩
  · exact State.arm_answered serves.1.1 serves.2 tag rfl (arrives.trans (Guard.serveRelease_range high))
  · exact State.arm_answered serves.1.1 serves.2 tag rfl (arrives.trans (Guard.serveRelease_notFound low waits))
  have key := (Guard.claim?_some found).2
  obtain rfl : c.arm = x := congrArg ClaimKey.arm key
  have served := arrives.trans (Guard.serveRelease_held (releaseOutcome_eq low) found held)
  generalize chosen : (if outcome = 0#8 then EntryOutcome.picked else .missed) = o at served
  have tally : ∀ q : Plan, q.tally o =
      if outcome = 0#8 then { q with picked := sat16 (q.picked + 1) } else { q with missed := sat16 (q.missed + 1) } := by
    intro q
    rw [← chosen]
    split <;> rfl
  have event : (if outcome = 0#8 then CountEvent.picks else .misses) = o.event := by
    rw [← chosen]
    split <;> rfl
  refine ⟨_, State.arm_served serves tag rfl served, ⟨_, rfl⟩, ?_, ?_, fun goodReads differ => ?_⟩
  · exact key ▸ (Event.finish_change _).gone (s.guard.event.endHeld_gone c.key o)
  · exact ((s.guard.event.endHeld_change c.key o).trans (Event.finish_change _)).followedBy
  obtain ⟨good, reads⟩ := goodReads
  rw [← key] at found
  have ended : (s.guard.event.endHeld c.key o).guard.reads = s.guard.reads :=
    Nat.le_antisymm (reads ▸ Nat.le_trans (Event.evaluateIfCalled_reads_le _) (Event.finish_reads_le _))
      (s.guard.event.endHeld_reads_le c.key o)
  have r := Guard.releases good found ended
  have rest := reads.trans ended.symm
  refine ⟨fun d hd => ?_, fun i n q origin => ⟨fun active => ?_, fun finishing => ⟨fun some => ?_, fun none => ?_⟩⟩,
    fun n _ counts => r.counter rest (counts.trans event), fun unwaited => ?_⟩
  · obtain ⟨e, he, stays⟩ := Event.finish_stays r.good r.touched r.reached
      ((s.guard.event.endHeld_change c.key o).keysDiffer differ) rest d (r.claims.symm ▸ hd)
    exact ⟨e, he, stays.keeps⟩
  · exact (r.active rest origin active).trans (congrArg Slot.active (tally q))
  · refine (r.finishing rest origin finishing).trans ((if_pos ?_).trans (congrArg Slot.finishing (tally q)))
    exact List.any_eq_true.2 some
  · refine (r.finishing rest origin finishing).trans (if_neg ?_)
    rw [Bool.not_eq_true]
    exact List.any_eq_false.2 fun d hd => by simp [none d hd]
  · obtain ⟨claims, vacate, other, mode, out⟩ := r.finish unwaited
    refine ⟨claims, fun d => ?_, other, mode, ?_⟩
    · refine (Iff.of_eq (congrArg (d ∈ ·) vacate)).trans ((r.vacate d).trans ?_)
      rw [Guard.ownCellsOf_eq]
      rfl
    · refine congrArg _ (out.trans (congrArg₂ (· ++ ·) ?_ rfl))
      unfold Guard.releaseEnds
      cases c.origin with
      | supervisor => rfl
      | plan i n =>
        dsimp only
        cases (s.guard.arm c.arm).slot i with
        | finishing q =>
          dsimp only
          rw [← tally]
          have same : (q.tally o).ended c.arm i =
              ⟨c.arm, i, q.planId, (q.tally o).picked, q.skipped, (q.tally o).missed, q.endReason⟩ := by
            rw [← chosen]
            split <;> rfl
          rw [same]
          rfl
        | _ => rfl

end Sys2Proof.Machine

/-! # Claims ended whatever their state (R99)

Reads let go of waiting claims alone (`Guard.Spares`), so that whatever they find, every held claim named is revoked and
every name is gone at the end. With good reads no claim leaves but by its own end, each with its notice. -/

namespace Sys2Proof.Machine

/-! ## What leaves the held claims alone -/

/-- Every held claim stays with its mark. -/
def Guard.Spares (g h : Guard) : Prop := ∀ m ∈ g.marks, m.held = true → m ∈ h.marks

theorem Guard.Spares.refl (g : Guard) : g.Spares g := fun _ hm _ => hm

theorem Guard.Spares.trans {g h k : Guard} (a : g.Spares h) (b : h.Spares k) : g.Spares k :=
  fun m hm held => b m (a m hm held) held

theorem Guard.Spares.of_marks {g h : Guard} (e : h.marks = g.marks) : g.Spares h := fun _ hm _ => e ▸ hm

theorem Guard.Spares.of_claims {g h : Guard} (e : h.claims = g.claims) : g.Spares h :=
  .of_marks (congrArg (List.map Claim.mark) e)

theorem Guard.Leaves.waits {g h : Guard} (l : g.Leaves h) {k : ClaimKey} (w : g.waits k) : h.waits k := by
  obtain ⟨stays, e⟩ := l
  intro d hd key
  have mem : d.mark ∈ h.marks := List.mem_map_of_mem hd
  rw [e] at mem
  obtain ⟨c, hc, mark⟩ := List.mem_map.1 (List.mem_filter.1 mem).1
  have same : c.key = d.key := congrArg ClaimMark.key mark
  have held : c.isHeld = d.isHeld := congrArg ClaimMark.held mark
  refine Claim.waiting_of_not_held fun phase => ?_
  have waiting := w c hc (same.trans key)
  rw [Claim.isHeld_iff.2 phase, Claim.isHeld_iff, waiting] at held
  cases held

theorem Guard.succeed_marks (g : Guard) (c : Claim) : (g.succeed c).marks = g.marks := by
  unfold Guard.succeed
  split
  · exact map_mark_map g.claims fun c => by split <;> rfl
  · rfl

theorem Guard.removeClaim_marks (g : Guard) (k : ClaimKey) :
    (g.removeClaim k).marks = g.marks.filter fun m => m.key ≠ k :=
  (List.filter_map (f := Claim.mark) (p := fun m => decide (m.key ≠ k)) (l := g.claims)).symm

/-- A waiting claim that leaves takes no other name with it. -/
theorem Event.leaveWaiting_marks (ev : Event) (c : Claim) (n : ArmNotice) :
    (ev.leaveWaiting c n).guard.marks = ev.guard.marks.filter fun m => m.key ≠ c.key := by
  rw [Guard.marks, Event.leaveWaiting_claims]
  exact (Guard.succeed_marks _ c).trans (Guard.removeClaim_marks _ _)

theorem Event.leaveWaiting_spares {ev : Event} {g : Guard} (e : ev.guard = g) {k : ClaimKey} (w : g.waits k) {c : Claim}
    (key : c.key = k) (n : ArmNotice) : g.Spares (ev.leaveWaiting c n).guard := by
  subst e key
  intro m hm held
  rw [Event.leaveWaiting_marks]
  refine List.mem_filter.2 ⟨hm, decide_eq_true fun key => ?_⟩
  obtain ⟨d, hd, rfl⟩ := List.mem_map.1 hm
  rw [Claim.mark, Claim.isHeld_iff, w d hd key] at held
  cases held

/-! ## Reads -/

theorem Guard.poisonCell_marks (g : Guard) (c : Cell) : (g.poisonCell c).marks = g.marks := by
  have claims : (g.poisonCell c).claims = g.claims.map fun k => { k with
      effective := if k.isHeld then dropCell k.effective c else k.effective
      reserved := dropCell k.reserved c } := by
    unfold Guard.poisonCell Guard.onVacate
    dsimp only
    rw [Guard.reindexCell_claims, Guard.onSection_claims, Guard.onArm_claims, Guard.onArm_claims]
  rw [Guard.marks, claims]
  exact map_mark_map g.claims fun _ => rfl

theorem Event.readRaw_marks (ev : Event) (who : Reader) (c : Cell) :
    (ev.readRaw who c).1.guard.marks = ev.guard.marks := by
  have drawn : ev.guard.drawFinding.2.marks = ev.guard.marks :=
    congrArg (List.map Claim.mark) ev.guard.drawFinding_claims
  have rebuilt := congrArg (List.map Claim.mark)
    (Event.uncorrectable_claims { ev with guard := ev.guard.drawFinding.2 } c)
  unfold Event.readRaw
  split
  · rfl
  · dsimp only
    split
    · exact drawn
    · exact (congrArg (List.map Claim.mark)
        (Event.rise_claims { ev with guard := ev.guard.drawFinding.2 } c.sec 1)).trans drawn
    · rw [Event.postRead_guard]
      exact rebuilt.trans drawn
    · rw [Event.postRead_guard]
      refine (Guard.poisonCell_marks _ c).trans ?_
      rw [Event.callEvaluation_guard, Event.postRead_guard]
      exact rebuilt.trans drawn

theorem Event.formRaw_marks (ev : Event) (cells : CellSet) : (ev.formRaw cells).1.guard.marks = ev.guard.marks := by
  induction cells generalizing ev with
  | nil => rfl
  | cons c cs ih => exact (ih _).trans (ev.readRaw_marks .arbiter c)

theorem Guard.refit_marks (g : Guard) (k : ClaimKey) (old kept : CellSet) (n : Nat) :
    (g.refit k old kept n).marks = g.marks := by
  unfold Guard.refit Guard.marks
  rw [Guard.reindex_claims]
  exact map_mark_map g.claims fun c => by split <;> rfl

/-- Only a waiting claim is formed anew, and bounced by it. -/
theorem Event.reform_spares {ev : Event} {k : ClaimKey} (w : ev.guard.waits k) :
    ev.guard.Spares (ev.reform k).guard := by
  unfold Event.reform
  split
  · exact .refl _
  · rename_i c _
    dsimp only
    have marks := (Guard.refit_marks (ev.formRaw (c.shape.cells ev.guard.cfg)).1.guard k c.reserved
      (ev.formRaw (c.shape.cells ev.guard.cfg)).2 (c.shape.cells ev.guard.cfg).length).trans (ev.formRaw_marks _)
    split
    · rename_i d found
      split
      · have waits := (Guard.Leaves.of_marks marks).waits w
        refine .trans (.of_marks marks) (Event.leaveWaiting_spares ?_ waits (Guard.claim?_some found).2 _)
        rfl
      · exact .of_marks marks
    · exact .of_marks marks

theorem Event.settleRounds_spares (n : Nat) {ev : Event} (hk : ev.guard.keysDiffer) :
    ev.guard.Spares (ev.settleRounds n).guard := by
  have fold : ∀ (ks : List ClaimKey) (ev : Event), (∀ k ∈ ks, ev.guard.waits k) →
      ev.guard.Spares (ks.foldl Event.reform ev).guard := by
    intro ks
    induction ks with
    | nil => exact fun ev _ => .refl ev.guard
    | cons k ks ih =>
      intro ev w
      exact .trans (Event.reform_spares (w k List.mem_cons_self))
        (ih _ fun j hj => (ev.reform_leaves k).waits (w j (List.mem_cons_of_mem _ hj)))
  induction n generalizing ev with
  | zero => exact .refl _
  | succ n ih =>
    unfold Event.settleRounds
    split
    · exact .refl _
    · refine .trans (fold _ { ev with touched := [] } fun k hk' => ?_)
        (ih ((Event.foldl_change Event.reform Event.reform_change _ { ev with touched := [] }).keysDiffer hk))
      obtain ⟨c, hc, waits, rfl⟩ := Guard.mem_keysWhere.1 hk'
      intro d hd key
      rw [hk.eq hd hc key]
      exact Claim.isWaiting_iff.1 (Bool.and_eq_true_iff.1 waits).1

theorem Event.readCells_spares {ev : Event} (hk : ev.guard.keysDiffer) (who : Reader) (cells : CellSet) :
    ev.guard.Spares (ev.readCells who cells).1.guard := by
  induction cells generalizing ev with
  | nil => exact .refl _
  | cons c cs ih =>
    have raw := (ev.readRaw_change who c).keysDiffer hk
    exact .trans (.trans (.of_marks (ev.readRaw_marks who c)) (Event.settleRounds_spares 769 raw))
      (ih ((ev.readCell_change who c).keysDiffer hk))

/-! ## One claim ended -/

theorem Event.ended_marks (ev : Event) (c : Claim) (o : EntryOutcome) (cells : CellSet) :
    (ev.ended c o cells).guard.marks = ev.guard.marks.filter fun m => m.key ≠ c.key := by
  rw [Guard.marks, Event.ended_claims]
  exact Guard.removeClaim_marks _ _

/-- What the end of a held claim comes to, whatever its reads find. -/
theorem Event.endHeld_cases {ev : Event} {k : ClaimKey} {c : Claim} (found : ev.guard.claim? k = some c) (o : EntryOutcome) :
    let read := (ev.readCells .handover (ev.guard.ownCellsOf c)).1
    ev.endHeld k o = read ∨
      ∃ d, read.guard.claim? k = some d ∧ ev.endHeld k o = read.ended d o (read.guard.ownCellsOf d) := by
  unfold Event.endHeld
  rw [found]
  dsimp only
  split
  · exact .inl rfl
  · rename_i d again
    obtain rfl := (Guard.claim?_some again).2
    exact .inr ⟨d, again, rfl⟩

theorem Event.endHeld_leaves (ev : Event) (k : ClaimKey) (o : EntryOutcome) :
    ev.guard.Leaves (ev.endHeld k o).guard := by
  cases found : ev.guard.claim? k with
  | none =>
    unfold Event.endHeld
    rw [found]
    exact .refl _
  | some c =>
    have read := ev.readCells_leaves .handover (ev.guard.ownCellsOf c)
    rcases Event.endHeld_cases found o with e | ⟨d, -, e⟩ <;> rw [e]
    · exact read
    · exact read.trans ⟨fun n => n ≠ d.key, Event.ended_marks _ _ _ _⟩

/-- A held claim of another name stays when a held claim ends. -/
theorem Event.endHeld_spares {ev : Event} (hk : ev.guard.keysDiffer) {k : ClaimKey} (o : EntryOutcome) {m : ClaimMark}
    (hm : m ∈ ev.guard.marks) (held : m.held = true) (other : m.key ≠ k) : m ∈ (ev.endHeld k o).guard.marks := by
  cases found : ev.guard.claim? k with
  | none =>
    unfold Event.endHeld
    rw [found]
    exact hm
  | some c =>
    have read := Event.readCells_spares hk .handover (ev.guard.ownCellsOf c) m hm held
    rcases Event.endHeld_cases found o with e | ⟨d, again, e⟩ <;> rw [e]
    · exact read
    · rw [Event.ended_marks]
      exact List.mem_filter.2 ⟨read, decide_eq_true ((Guard.claim?_some again).2 ▸ other)⟩

/-! ## The claims of a list ended -/

/-- A claim of a mark, found by its name. -/
theorem Guard.keysDiffer.claim?_mark {g : Guard} (hk : g.keysDiffer) {m : ClaimMark} (hm : m ∈ g.marks) :
    ∃ d ∈ g.claims, g.claim? m.key = some d ∧ d.mark = m := by
  obtain ⟨d, hd, rfl⟩ := List.mem_map.1 hm
  exact ⟨d, hd, hk.claim? hd, rfl⟩

/-- Whatever the reads find, each claim of the list is gone. -/
theorem Event.endClaims_gone (ks : List ClaimKey) (ev : Event) {k : ClaimKey} (hk : k ∈ ks) :
    ∀ d ∈ (ev.endClaims ks).1.guard.claims, d.key ≠ k := by
  induction ks generalizing ev with
  | nil => cases hk
  | cons j ks ih =>
    have first : ∀ e : Event, (∀ d ∈ e.guard.claims, d.key ≠ j) → ∀ d ∈ (e.endClaims ks).1.guard.claims, d.key ≠ k := by
      intro e gone
      rcases List.mem_cons.1 hk with rfl | hk
      · exact (e.endClaims_change ks).gone gone
      · exact ih e hk
    unfold Event.endClaims
    split
    · rename_i none
      exact first ev (Guard.claim?_none none)
    · rename_i c found
      obtain rfl := (Guard.claim?_some found).2
      split
      · exact first _ (Event.endHeld_gone _ _ _)
      · exact first _ (ev.leaveWaiting_gone c _)

/-- The counts of the claims ended, whatever the reads find: every held claim is revoked, and of the waiting ones those are
withdrawn that no read had bounced before. -/
theorem Event.endClaims_counts (cs : List Claim) {ev : Event} (hk : ev.guard.keysDiffer) (nodup : (cs.map Claim.key).Nodup)
    (held : ∀ c ∈ cs, c.isHeld = true → c.mark ∈ ev.guard.marks)
    (waits : ∀ c ∈ cs, c.isHeld = false → ev.guard.waits c.key) :
    (ev.endClaims (cs.map Claim.key)).2.revoked = cs.countP Claim.isHeld ∧
      (ev.endClaims (cs.map Claim.key)).2.withdrawn + cs.countP Claim.isHeld ≤ cs.length := by
  induction cs generalizing ev with
  | nil => exact ⟨rfl, Nat.le_refl _⟩
  | cons c cs ih =>
    obtain ⟨fresh, nodup⟩ := List.nodup_cons.1 nodup
    have apart : ∀ b ∈ cs, b.key ≠ c.key := fun b hb e => fresh (e ▸ List.mem_map_of_mem hb)
    have own := held c List.mem_cons_self
    have ownWaits := waits c List.mem_cons_self
    have held := fun b hb => held b (List.mem_cons_of_mem _ hb)
    have waits := fun b hb => waits b (List.mem_cons_of_mem _ hb)
    rw [List.map_cons, List.countP_cons, List.length_cons]
    unfold Event.endClaims
    cases phase : c.isHeld with
    | true =>
      obtain ⟨d, hd, found, mark⟩ := hk.claim?_mark (own phase)
      have isHeld : d.isHeld = true := (congrArg ClaimMark.held mark).trans phase
      have key : d.key = c.key := congrArg ClaimMark.key mark
      have revoked := ev.revoke_change d
      obtain ⟨count, le⟩ := ih (revoked.keysDiffer hk) nodup
        (fun b hb h => Event.endHeld_spares (ev := ev.post _) hk .missed (held b hb h) h (key ▸ apart b hb))
        (fun b hb h => (Event.endHeld_leaves (ev.post _) d.key .missed).waits (waits b hb h))
      rw [show ev.guard.claim? c.key = some d from found]
      dsimp only
      rw [if_pos isHeld]
      dsimp only
      rw [if_pos rfl, count]
      exact ⟨rfl, by omega⟩
    | false =>
      rw [if_neg Bool.false_ne_true, Nat.add_zero]
      split
      · obtain ⟨count, le⟩ := ih hk nodup held waits
        exact ⟨count, by omega⟩
      · rename_i d found
        obtain ⟨hd, key⟩ := Guard.claim?_some found
        have waiting := ownWaits phase d hd key
        have notHeld : ¬d.isHeld = true := fun h => by
          rw [Claim.isHeld_iff, waiting] at h
          cases h
        obtain ⟨count, le⟩ := ih ((ev.withdraw_change d).keysDiffer hk) nodup
          (fun b hb h => Event.leaveWaiting_spares rfl (ownWaits phase) key _ _ (held b hb h) h)
          (fun b hb h => (ev.leaveWaiting_leaves d _).waits (waits b hb h))
        rw [if_neg notHeld]
        dsimp only
        exact ⟨count, by omega⟩

/-! ## With good reads -/

/-- The notice of a claim ended: REVOKED for a held one, WITHDRAWN for a waiting one (R82, R101). -/
def Claim.ending (c : Claim) : Posted :=
  .toArm c.arm (if c.isHeld then .revoked c.number c.origin else .withdrawn c.number c.origin)

theorem Claim.ending_of_mark {c d : Claim} (e : d.mark = c.mark) : d.ending = c.ending := by
  have key : d.key = c.key := congrArg ClaimMark.key e
  have arm : d.arm = c.arm := congrArg ClaimKey.arm key
  have number : d.number = c.number := congrArg ClaimKey.number key
  have origin : d.origin = c.origin := congrArg ClaimMark.origin e
  have held : d.isHeld = c.isHeld := congrArg ClaimMark.held e
  unfold Claim.ending
  rw [arm, number, origin, held]

/-- One claim ended. -/
def Event.endClaim (ev : Event) (c : Claim) : Event := if c.isHeld then ev.revoke c else ev.withdraw c

/-- An event that has ended claims so far and done nothing else: its reads good, the notices of the claims posted. -/
structure Event.Ends (ev : Event) (cs : List Claim) (ev' : Event) : Prop where
  steady : ev.Steady ev'
  out : ev'.out = ev.out ++ cs.map Claim.ending
  changes : ev'.changes = ev.changes

theorem Event.Ends.trans {a b c : Event} {cs ds : List Claim} (h : a.Ends cs b) (k : b.Ends ds c) : a.Ends (cs ++ ds) c :=
  ⟨h.steady.trans k.steady, by rw [k.out, h.out, List.map_append, List.append_assoc], k.changes.trans h.changes⟩

theorem Event.endClaim_ends {ev : Event} (good : ev.guard.foretoldGood) (touched : ev.touched = []) {c : Claim}
    (found : ev.guard.claim? c.key = some c) (reads : (ev.endClaim c).guard.reads = ev.guard.reads) :
    ev.Ends [c] (ev.endClaim c) ∧ (ev.endClaim c).guard.marks = ev.guard.marks.filter fun m => m.key ≠ c.key := by
  unfold Event.endClaim at reads ⊢
  split
  · rename_i held
    rw [if_pos held] at reads
    have quiet := Event.endHeld_quiet (ev := ev.post (.toArm c.arm (.revoked c.number c.origin))) good touched reads
    obtain ⟨n, e⟩ := Event.endHeld_drawn (ev := ev.post (.toArm c.arm (.revoked c.number c.origin))) good touched found reads
    obtain ⟨⟨still, poisoned, touched, reached, late⟩, out⟩ := quiet
    refine ⟨⟨⟨still, poisoned, touched, reached, late⟩, out.trans ?_, ?_⟩, ?_⟩
    · rw [Event.out_post, List.map_singleton, Claim.ending, if_pos held]
    · exact (congrArg Event.changes e).trans (Event.ended_changes _ _ _ _)
    · exact (congrArg (fun e : Event => e.guard.marks) e).trans (Event.ended_marks _ _ _ _)
  · rename_i waiting
    refine ⟨⟨Event.leaveWaiting_steady good c _, ?_, ev.leaveWaiting_changes c _⟩, ev.leaveWaiting_marks c _⟩
    rw [Event.withdraw, Event.leaveWaiting_out, List.map_singleton, Claim.ending, if_neg waiting]

theorem Event.endClaims_cons {ev : Event} {k : ClaimKey} {ks : List ClaimKey} {c : Claim}
    (found : ev.guard.claim? k = some c) :
    (ev.endClaims (k :: ks)).1 = ((ev.endClaim c).endClaims ks).1 ∧
      (ev.endClaims (k :: ks)).2.revoked + (ev.endClaims (k :: ks)).2.withdrawn =
        ((ev.endClaim c).endClaims ks).2.revoked + ((ev.endClaim c).endClaims ks).2.withdrawn + 1 := by
  rw [Event.endClaims, found]
  unfold Event.endClaim
  dsimp only
  split
  · exact ⟨rfl, by dsimp only; omega⟩
  · exact ⟨rfl, by dsimp only; omega⟩

/-- Claims ended with good reads, each in the table with its mark: a notice for each in the order of the list, and none left
out of the counts. -/
theorem Event.endClaims_good (cs : List Claim) {ev : Event} (good : ev.guard.foretoldGood) (touched : ev.touched = [])
    (hk : ev.guard.keysDiffer) (nodup : (cs.map Claim.key).Nodup) (named : ∀ c ∈ cs, c.mark ∈ ev.guard.marks)
    (reads : (ev.endClaims (cs.map Claim.key)).1.guard.reads = ev.guard.reads) :
    ev.Ends cs (ev.endClaims (cs.map Claim.key)).1 ∧
      (ev.endClaims (cs.map Claim.key)).2.revoked + (ev.endClaims (cs.map Claim.key)).2.withdrawn = cs.length := by
  induction cs generalizing ev with
  | nil => exact ⟨⟨.refl good, (List.append_nil _).symm, rfl⟩, rfl⟩
  | cons c cs ih =>
    obtain ⟨fresh, nodup⟩ := List.nodup_cons.1 nodup
    obtain ⟨d, hd, found, mark⟩ := hk.claim?_mark (named c List.mem_cons_self)
    have key : d.key = c.key := congrArg ClaimMark.key mark
    obtain ⟨step, count⟩ := Event.endClaims_cons (ks := cs.map Claim.key) found
    have change : Guard.Change ev.guard (ev.endClaim d).guard := by
      unfold Event.endClaim
      split
      · exact ev.revoke_change d
      · exact ev.withdraw_change d
    have firstLe : ev.guard.reads ≤ (ev.endClaim d).guard.reads := by
      unfold Event.endClaim
      split
      · exact Event.endHeld_reads_le (ev.post _) d.key .missed
      · exact (ev.leaveWaiting_still d _).reads.ge
    have restLe := Event.endClaims_reads_le (cs.map Claim.key) (ev.endClaim d)
    rw [List.map_cons] at reads ⊢
    change (ev.endClaims (c.mark.key :: _)).1.guard.reads = _ at reads
    rw [step] at reads
    have first : (ev.endClaim d).guard.reads = ev.guard.reads := Nat.le_antisymm (reads ▸ restLe) firstLe
    obtain ⟨ends, marks⟩ := Event.endClaim_ends good touched (key.symm ▸ found) first
    obtain ⟨rest, counts⟩ := ih ends.steady.good (ends.steady.touched.trans touched) (change.keysDiffer hk) nodup
      (fun b hb => by
        rw [marks]
        exact List.mem_filter.2 ⟨named b (List.mem_cons_of_mem _ hb),
          decide_eq_true fun e => fresh (key ▸ e ▸ List.mem_map_of_mem hb)⟩)
      (reads.trans first.symm)
    refine ⟨?_, ?_⟩
    · have own : ev.Ends [c] (ev.endClaim d) :=
        ⟨ends.steady, by rw [ends.out, List.map_singleton, List.map_singleton, Claim.ending_of_mark mark], ends.changes⟩
      exact step ▸ own.trans rest
    · exact count.trans (congrArg (· + 1) counts)

end Sys2Proof.Machine

/-! # REVOKE (O23) -/

namespace Sys2Proof.Machine

/-! ## Where REVOKED can be latched -/

/-- Both arms keep their calculator, and an arm that is not INSIDE its REVOKED. -/
def Guard.LatchesInside (g h : Guard) : Prop := ∀ x, (h.arm x).calculator = (g.arm x).calculator ∧
  ((g.arm x).calculator.zone ≠ .inside → (h.arm x).unit.sources.revoked = (g.arm x).unit.sources.revoked)

theorem Guard.LatchesInside.refl (g : Guard) : g.LatchesInside g := fun _ => ⟨rfl, fun _ => rfl⟩

theorem Guard.LatchesInside.trans {g h k : Guard} (a : g.LatchesInside h) (b : h.LatchesInside k) : g.LatchesInside k := by
  intro x
  obtain ⟨calculator, kept⟩ := a x
  obtain ⟨calculator', kept'⟩ := b x
  exact ⟨calculator'.trans calculator, fun out => (kept' (calculator ▸ out)).trans (kept out)⟩

/-- The changes of an arm that leave its action unit alone. -/
def besidesUnit : ArmChange → Prop := fun change => change ≠ .act

theorem Guard.Moves.unit {g h : Guard} (m : g.Moves besidesUnit h) (x : Arm) : (h.arm x).unit = (g.arm x).unit :=
  (m x).unit fun act => act rfl

theorem Guard.LatchesInside.of_moves {g h : Guard} (m : g.Moves besidesUnit h) : g.LatchesInside h :=
  fun x => ⟨(m x).calculator, fun _ => by rw [m.unit]⟩

theorem Guard.LatchesInside.of_arms {g h : Guard} (e : ∀ x, h.arm x = g.arm x) : g.LatchesInside h :=
  .of_moves (.of_arms e)

/-- The change of an action unit that leaves its sources alone. -/
theorem Guard.LatchesInside.onUnit (g : Guard) (x : Arm) {f : ActionUnit → ActionUnit}
    (sources : ∀ u, (f u).sources = u.sources) : g.LatchesInside (g.onUnit x f) := by
  intro y
  rw [Guard.onUnit, Guard.arm_onArm_eq]
  split
  · exact ⟨rfl, fun _ => by rw [sources]⟩
  · exact ⟨rfl, fun _ => rfl⟩

theorem Guard.changeLevel_latches (g : Guard) (x : Arm) (l : Level) : g.LatchesInside (g.changeLevel x l) := by
  have lines : ∀ h : Guard, h.LatchesInside (h.followLines x) := fun h => .onUnit h x fun _ => rfl
  refine .trans (.onUnit g x fun _ => ?_) (lines _)
  rfl

theorem Event.computeLevel_latches (ev : Event) (x : Arm) : ev.guard.LatchesInside (ev.computeLevel x).guard := by
  have changed := ev.guard.changeLevel_latches x
  unfold Event.computeLevel
  dsimp only
  split
  · exact .refl _
  · split
    · exact .trans (changed _) (.of_moves (Event.withdrawAll_moves (ev.onGuard fun g => g.changeLevel x _) _))
    · exact changed _

theorem Event.latchRevoked_latches (ev : Event) (named : Arm → Bool) :
    ev.guard.LatchesInside (ev.latchRevoked named).guard := by
  have latch : ∀ (e : Event) (x : Arm), e.guard.LatchesInside
      (if named x && (e.guard.arm x).calculator.zone = .inside then e.raise x .revoked else e).guard := by
    intro e x
    split
    · rename_i h
      have inside : (e.guard.arm x).calculator.zone = .inside := by
        simpa using (Bool.and_eq_true_iff.1 h).2
      intro y
      rw [Event.raise_guard, Guard.arm_onArm_eq]
      split
      · rename_i same
        exact ⟨rfl, fun out => absurd (same ▸ inside) out⟩
      · exact ⟨rfl, fun _ => rfl⟩
    · exact .refl _
  unfold Event.latchRevoked
  rw [Event.postFaults_guard]
  exact .trans (.trans (.trans (latch ev .A) (latch _ .B)) (Event.computeLevel_latches _ .A))
    (Event.computeLevel_latches _ .B)

theorem shrinkBesidesUnit : besidesUnit .shrink := ArmChange.noConfusion

theorem joinBesidesUnit : besidesUnit .join := ArmChange.noConfusion

theorem Event.retire_latches (ev : Event) (s : Nat) : ev.guard.LatchesInside (ev.retire s).guard := by
  unfold Event.retire
  dsimp only
  refine .trans ?_ (.of_moves (Event.runEvaluation_moves _ shrinkBesidesUnit))
  simp only [Event.onGuard_guard, Event.post_guard]
  refine .trans ?_ (.of_arms (Guard.restartScrub_arms _))
  refine .trans ?_ (.of_moves (Event.settle_moves _ shrinkBesidesUnit))
  dsimp only
  refine .trans ?_ (Event.latchRevoked_latches _ _)
  refine .trans ?_ (.of_moves (Event.endClaims_moves _ _ shrinkBesidesUnit joinBesidesUnit))
  dsimp only [Event.onGuard_guard]
  refine .trans ?_ (.of_arms (Guard.retireSection_arm _ s))
  exact .of_moves (ev.readCells_moves _ _ shrinkBesidesUnit)

theorem Event.flush_latches (ev : Event) (s : Nat) : ev.guard.LatchesInside (ev.flush s).guard := by
  unfold Event.flush
  dsimp only
  refine .trans ?_ (.of_moves (Event.runEvaluation_moves _ shrinkBesidesUnit))
  simp only [Event.onGuard_guard, Event.post_guard]
  refine .trans ?_ (.of_arms (Guard.onSection_arm _ s _))
  refine .trans ?_ (.of_moves (Event.rewriteAll_moves _ _ _ shrinkBesidesUnit))
  simp only [Event.onGuard_guard]
  refine .trans ?_ (.of_arms (Guard.reindex_arm _ _))
  refine .trans ?_ (Event.latchRevoked_latches _ _)
  exact .of_moves (ev.endClaims_moves _ shrinkBesidesUnit joinBesidesUnit)

theorem Event.dealWithSections_latches (n : Nat) (ev : Event) :
    ev.guard.LatchesInside (ev.dealWithSections n).guard := by
  induction n generalizing ev with
  | zero => exact .refl _
  | succ n ih =>
    unfold Event.dealWithSections
    split
    · exact .refl _
    · refine .trans ?_ (ih _)
      split
      · exact .refl _
      · split
        · exact ev.retire_latches _
        · exact ev.flush_latches _

/-- Whatever is read, the end of an event latches REVOKED for an arm that is INSIDE alone. -/
theorem Event.finish_latches (ev : Event) : ev.guard.LatchesInside ev.finish.guard :=
  .trans (.trans (.trans (.of_moves (ev.evaluateIfCalled_moves shrinkBesidesUnit))
    (Event.dealWithSections_latches 8 ev.evaluateIfCalled.afterReply)) (.of_moves (Event.endPlans_moves _)))
    (.of_arms (Event.endDraining_arm _))

/-- With good reads the end of an event leaves both action units alone. -/
theorem Event.finish_unit {ev : Event} (good : ev.guard.foretoldGood) (touched : ev.touched = []) (reached : ev.reached = [])
    (reads : ev.finish.guard.reads = ev.guard.reads) (x : Arm) :
    (ev.finish.guard.arm x).unit = (ev.guard.arm x).unit := by
  have evaluated := Nat.le_antisymm (reads ▸ ev.finish_reads_le) ev.evaluateIfCalled_reads_le
  obtain ⟨steady, -⟩ := Event.evaluateIfCalled_holdsOn good touched evaluated
  unfold Event.finish
  rw [Event.dealWithSections_none 8 (ev := ev.evaluateIfCalled.afterReply) (steady.reached.trans reached),
    Event.endDraining_arm, Guard.Moves.unit (Event.endPlans_moves _)]
  exact (ev.evaluateIfCalled_moves shrinkBesidesUnit).unit x

/-! ## The claims of an arm ended -/

section
variable (g : Guard) (x : Arm)

/-- The claims of an arm, older first. -/
def Guard.claimsOf : List Claim := g.claims.filter fun c => c.arm = x

theorem Guard.mem_claimsOf {g : Guard} {x : Arm} {c : Claim} : c ∈ g.claimsOf x ↔ c ∈ g.claims ∧ c.arm = x := by
  simp [Guard.claimsOf]

/-- The event that has ended every claim of the arm (R99). -/
def Guard.claimsEnded : Event := (g.event.endClaims ((g.claimsOf x).map Claim.key)).1

/-- How many of the claims waited until their end came. -/
def Guard.countWithdrawn : Nat := (g.event.endClaims ((g.claimsOf x).map Claim.key)).2.withdrawn

theorem Guard.claimsEnded_change : Guard.Change g (g.claimsEnded x).guard := g.event.endClaims_change _

theorem Guard.claimsEnded_moves : g.Moves besidesUnit (g.claimsEnded x).guard :=
  g.event.endClaims_moves _ shrinkBesidesUnit joinBesidesUnit

/-- Whatever its reads find, no claim of the arm is left. -/
theorem Guard.claimsEnded_gone : ∀ d ∈ (g.claimsEnded x).guard.claims, d.arm ≠ x := by
  intro d hd arm
  obtain ⟨c, hc, keeps⟩ := (g.claimsEnded_change x).claim d hd
  have own : c.arm = x := (congrArg ClaimKey.arm keeps.key).symm.trans arm
  exact Event.endClaims_gone _ g.event (List.mem_map_of_mem (Guard.mem_claimsOf.2 ⟨hc, own⟩)) d hd keeps.key

theorem Guard.countP_held_claimsOf : (g.claimsOf x).countP Claim.isHeld = g.heldCount x := by
  rw [Guard.claimsOf, List.countP_filter, List.countP_eq_length_filter]
  rfl

variable {g} (hk : g.keysDiffer)
include hk

theorem Guard.keysDiffer.claimsOf : ((g.claimsOf x).map Claim.key).Nodup :=
  hk.sublist (List.Sublist.map _ List.filter_sublist)

theorem Guard.claimsEnded_counts :
    (g.event.endClaims ((g.claimsOf x).map Claim.key)).2.revoked = g.heldCount x ∧
      g.countWithdrawn x + g.heldCount x ≤ g.claimCount x := by
  have counts := Event.endClaims_counts (ev := g.event) (g.claimsOf x) hk (Guard.keysDiffer.claimsOf x hk)
    (fun c hc _ => List.mem_map_of_mem (Guard.mem_claimsOf.1 hc).1) fun c hc waits d hd key => by
      rw [hk.eq hd (Guard.mem_claimsOf.1 hc).1 key]
      exact Claim.waiting_of_not_held fun held => by simp [Claim.isHeld, held] at waits
  rwa [g.countP_held_claimsOf] at counts

variable (good : g.foretoldGood) (reads : (g.claimsEnded x).guard.reads = g.reads)
include good reads

/-- With good reads each claim of the arm has its notice, and none left before its end. -/
theorem Guard.claimsEnded_good : g.event.Ends (g.claimsOf x) (g.claimsEnded x) ∧
    g.countWithdrawn x + g.heldCount x = g.claimCount x := by
  obtain ⟨ends, count⟩ := Event.endClaims_good (ev := g.event) (g.claimsOf x) good rfl hk (Guard.keysDiffer.claimsOf x hk)
    (fun c hc => List.mem_map_of_mem (Guard.mem_claimsOf.1 hc).1) reads
  rw [(Guard.claimsEnded_counts x hk).1, Nat.add_comm] at count
  exact ⟨ends, count⟩

end

/-! ## REVOKED latched -/

/-- The event of a REVOKE before its end: for an arm that is INSIDE, REVOKED is latched and the level follows, and an
evaluation is called for (R98, R100). -/
def Guard.revoking (g : Guard) (x : Arm) : Event :=
  (if (g.arm x).calculator.zone = .inside then ((g.claimsEnded x).raise x .revoked).settleLevel x
    else g.claimsEnded x).callEvaluation true

theorem Guard.serveRevoke_none {g : Guard} {p : List Byte} (arm : armOf (u8 p 0) = none) :
    g.serveRevoke p = g.answer (.refuse .range) := by
  rw [Guard.serveRevoke, arm]

theorem Guard.serveRevoke_some {g : Guard} (hk : g.keysDiffer) {p : List Byte} {x : Arm} (arm : armOf (u8 p 0) = some x) :
    g.serveRevoke p = (g.revoking x, .ok [byte (g.heldCount x), byte (g.countWithdrawn x),
      byte (flagBit (decide ((g.arm x).calculator.zone = .inside)) 0)]) := by
  have zone : ((g.claimsEnded x).guard.arm x).calculator = (g.arm x).calculator :=
    (g.claimsEnded_moves x x).calculator
  have count := (Guard.claimsEnded_counts x hk).1
  rw [Guard.serveRevoke, arm]
  dsimp only
  change (_, Reply.ok [byte (g.event.endClaims ((g.claimsOf x).map Claim.key)).2.revoked, byte (g.countWithdrawn x),
    byte (flagBit (decide (((g.claimsEnded x).guard.arm x).calculator.zone = .inside)) 0)]) = _
  rw [count, zone]
  refine Prod.ext ?_ rfl
  change Event.callEvaluation (if decide (((g.claimsEnded x).guard.arm x).calculator.zone = .inside) = true then _
    else g.claimsEnded x) true = _
  rw [zone]
  simp only [decide_eq_true_eq]
  rfl

section
variable (g : Guard) (x : Arm)

theorem Guard.revoking_change : Guard.Change g (g.revoking x).guard := by
  unfold Guard.revoking
  rw [Event.callEvaluation_guard]
  refine (g.claimsEnded_change x).trans ?_
  split
  · exact .trans (Event.raiseRevoked_change _ x) (Event.settleLevel_change _ x)
  · exact .refl _

theorem Guard.revoking_gone : ∀ d ∈ (g.revoking x).finish.guard.claims, d.arm ≠ x := by
  have after : Guard.Change (g.claimsEnded x).guard (g.revoking x).finish.guard := by
    refine .trans ?_ (Event.finish_change _)
    unfold Guard.revoking
    rw [Event.callEvaluation_guard]
    split
    · exact .trans (Event.raiseRevoked_change _ x) (Event.settleLevel_change _ x)
    · exact .refl _
  intro d hd
  obtain ⟨c, hc, keeps⟩ := after.claim d hd
  have arm : d.arm = c.arm := congrArg ClaimKey.arm keeps.key
  exact arm ▸ g.claimsEnded_gone x c hc

theorem Guard.claimsEnded_raise : (((g.claimsEnded x).raise x .revoked).guard.arm x).unit =
    { (g.arm x).unit with sources := { (g.arm x).unit.sources with revoked := true } } := by
  rw [Event.raise_guard, Guard.arm_onArm, ArmState.sourced, (g.claimsEnded_moves x).unit]
  rfl

/-- Whatever the reads find, REVOKED is latched exactly when it was before or the arm is INSIDE. -/
theorem Guard.revoking_revoked : ((g.revoking x).finish.guard.arm x).unit.sources.revoked =
    ((g.arm x).unit.sources.revoked || decide ((g.arm x).calculator.zone = .inside)) := by
  by_cases inside : (g.arm x).calculator.zone = .inside
  · have latched : ((g.revoking x).guard.arm x).unit.sources.revoked = true := by
      unfold Guard.revoking
      rw [if_pos inside, Event.callEvaluation_guard, Event.settleLevel_guard, (Event.computeLevel_follows _ x).1,
        g.claimsEnded_raise]
    obtain ⟨-, -, -, -, -, stays, -⟩ := (g.revoking x).finish_change.armKeeps x
    simp [stays latched, inside]
  · have moves : g.LatchesInside (g.revoking x).guard := by
      unfold Guard.revoking
      rw [if_neg inside]
      exact .of_moves (g.claimsEnded_moves x)
    obtain ⟨-, kept⟩ := (moves.trans (g.revoking x).finish_latches) x
    simp [kept inside, inside]

end

/-! ## The level after the latch -/

theorem Guard.revoking_inside {g : Guard} {x : Arm} (inside : (g.arm x).calculator.zone = .inside) :
    g.revoking x = (((g.claimsEnded x).raise x .revoked).settleLevel x).callEvaluation true := by
  rw [Guard.revoking, if_pos inside]

theorem Guard.revoking_outside {g : Guard} {x : Arm} (outside : (g.arm x).calculator.zone ≠ .inside) :
    g.revoking x = (g.claimsEnded x).callEvaluation true := by
  rw [Guard.revoking, if_neg outside]

theorem Event.raise_still (ev : Event) (x : Arm) (src : Source) : ev.Still (ev.raise x src) :=
  (ev.raise_only x src).still (ev.raise_guard x src)

/-- The level of the sources with REVOKED latched. -/
theorem Guard.claimsEnded_levelFor {g : Guard} {x : Arm} (mode : g.mode ≠ .init) :
    ((g.claimsEnded x).raise x .revoked).guard.levelFor x =
      levelOf (g.cfg.arm x) { (g.arm x).unit.sources with revoked := true } := by
  have change := (g.claimsEnded_change x).trans (Event.raiseRevoked_change _ x)
  unfold Guard.levelFor
  rw [if_neg (change.mode_ne_init mode), change.cfg, g.claimsEnded_raise]

theorem Guard.revoking_level {g : Guard} {x : Arm} (mode : g.mode ≠ .init)
    (inside : (g.arm x).calculator.zone = .inside) : ((g.revoking x).guard.arm x).unit.level =
      levelOf (g.cfg.arm x) { (g.arm x).unit.sources with revoked := true } ∧
    g.timersFollow x (g.arm x).unit ((g.revoking x).guard.arm x).unit := by
  have change := (g.claimsEnded_change x).trans (Event.raiseRevoked_change _ x)
  obtain ⟨-, level, timers⟩ := ((g.claimsEnded x).raise x .revoked).computeLevel_follows x
  rw [Guard.revoking_inside inside, Event.callEvaluation_guard, Event.settleLevel_guard]
  refine ⟨level.trans (Guard.claimsEnded_levelFor mode),
    Guard.timersFollow_congr change.cfg change.now ?_ ?_ ?_ timers⟩
  all_goals rw [g.claimsEnded_raise]

theorem Event.computeLevel_unit_other (ev : Event) (x : Arm) :
    ((ev.computeLevel x).guard.arm x.other).unit = (ev.guard.arm x.other).unit := by
  have changed : ∀ l, (ev.guard.changeLevel x l).arm x.other = ev.guard.arm x.other := fun l => by
    unfold Guard.changeLevel Guard.followLines Guard.onUnit
    rw [Guard.arm_onArm_other, Guard.arm_onArm_other]
  unfold Event.computeLevel
  dsimp only
  split
  · rfl
  · split
    · refine (Guard.Moves.unit (Event.withdrawAll_moves (ev.onGuard fun g => g.changeLevel x _) _) _).trans ?_
      rw [Event.onGuard_guard, changed]
    · rw [Event.onGuard_guard, changed]

/-- The action unit of the other arm stays. -/
theorem Guard.revoking_unit_other (g : Guard) (x : Arm) :
    ((g.revoking x).guard.arm x.other).unit = (g.arm x.other).unit := by
  have ended := (g.claimsEnded_moves x).unit x.other
  unfold Guard.revoking
  rw [Event.callEvaluation_guard]
  split
  · rw [Event.settleLevel_guard, Event.computeLevel_unit_other, Event.raise_guard, Guard.arm_onArm_other, ended]
  · exact ended

/-! ## With good reads -/

section
variable {g : Guard} {x : Arm} (reads : (g.revoking x).finish.guard.reads = g.reads)
include reads

/-- A REVOKE draws its findings when the claims are ended and when the arbiter evaluates. -/
theorem Guard.revoking_reads : (g.revoking x).guard.reads = g.reads ∧ (g.claimsEnded x).guard.reads = g.reads := by
  have ended : g.reads ≤ (g.claimsEnded x).guard.reads := Event.endClaims_reads_le _ g.event
  have latched : (g.revoking x).guard.reads = (g.claimsEnded x).guard.reads := by
    unfold Guard.revoking
    rw [Event.callEvaluation_guard]
    split
    · rw [(Event.settleLevel_still _ x).reads, Event.raise_reads]
    · rfl
  have finish := (Event.evaluateIfCalled_reads_le (g.revoking x)).trans (Event.finish_reads_le _)
  omega

variable (good : g.foretoldGood) (hk : g.keysDiffer)
include good hk

theorem Guard.revoking_ends : g.event.Ends (g.claimsOf x) (g.claimsEnded x) ∧
    g.countWithdrawn x + g.heldCount x = g.claimCount x :=
  Guard.claimsEnded_good x hk good (Guard.revoking_reads reads).2

theorem Guard.revoking_steady : g.event.Steady (g.revoking x) := by
  obtain ⟨⟨ended, -, -⟩, -⟩ := Guard.revoking_ends reads good hk
  unfold Guard.revoking
  split
  · obtain ⟨still, poisoned, touched, reached, late⟩ :=
      ended.trans (((Event.raise_still _ x .revoked).trans (Event.settleLevel_still _ x)).steady ended.good)
    exact ⟨still, poisoned, touched, reached, late⟩
  · obtain ⟨still, poisoned, touched, reached, late⟩ := ended
    exact ⟨still, poisoned, touched, reached, late⟩

/-- The end of the event leaves the action units as the latch has left them. -/
theorem Guard.revoking_finish_unit (y : Arm) :
    ((g.revoking x).finish.guard.arm y).unit = ((g.revoking x).guard.arm y).unit := by
  have steady := Guard.revoking_steady reads good hk
  exact Event.finish_unit steady.good steady.touched steady.reached
    (reads.trans (Guard.revoking_reads reads).1.symm) y

end

/-! ## What is posted where all claims are the arm's -/

/-- FAULT of REVOKED, where it is newly raised and notified (R120). -/
def Guard.revokedFault (g : Guard) (x : Arm) : List Posted :=
  if decide ((g.arm x).calculator.zone = .inside) && !(g.arm x).unit.sources.revoked && (g.cfg.arm x).notify.revoked then
    [.toHost (.fault x .revoked .raised .hold (levelOf (g.cfg.arm x) { (g.arm x).unit.sources with revoked := true }))]
  else []

/-- The FAULT of the latch, read in the guard that it leaves. -/
theorem Guard.revoked_faults (g h : Guard) (x : Arm) (cfg : h.cfg = g.cfg) (inside : (g.arm x).calculator.zone = .inside)
    (level : (h.arm x).unit.level = levelOf (g.cfg.arm x) { (g.arm x).unit.sources with revoked := true }) :
    h.faults (if (g.arm x).unit.sources.has .revoked then [] else [⟨x, .revoked, .raised⟩]) = g.revokedFault x := by
  unfold Guard.faults Guard.revokedFault Sources.has
  cases (g.arm x).unit.sources.revoked with
  | true => simp
  | false => cases on : (g.cfg.arm x).notify.revoked <;> simp [cfg, level, inside, on, NotifyFlags.of, sourceAction]

section
variable {g : Guard} {x : Arm} (all : ∀ c ∈ g.claims, c.arm = x)
include all

theorem Guard.claimsOf_all : g.claimsOf x = g.claims :=
  List.filter_eq_self.2 fun c hc => decide_eq_true (all c hc)

theorem Guard.Change.no_claims {h : Guard} (change : Guard.Change g h) (gone : ∀ d ∈ h.claims, d.arm ≠ x) :
    h.claims = [] := by
  refine List.eq_nil_iff_forall_not_mem.2 fun d hd => ?_
  obtain ⟨c, hc, keeps⟩ := change.claim d hd
  have arm : d.arm = c.arm := congrArg ClaimKey.arm keeps.key
  exact gone d hd (arm.trans (all c hc))

theorem Guard.revoking_no_claims : (g.revoking x).guard.claims = [] := by
  have none := (g.claimsEnded_change x).no_claims all (g.claimsEnded_gone x)
  have after : Guard.Change (g.claimsEnded x).guard (g.revoking x).guard := by
    unfold Guard.revoking
    rw [Event.callEvaluation_guard]
    split
    · exact .trans (Event.raiseRevoked_change _ x) (Event.settleLevel_change _ x)
    · exact .refl _
  refine List.eq_nil_iff_forall_not_mem.2 fun d hd => ?_
  obtain ⟨c, hc, -⟩ := after.claim d hd
  rw [none] at hc
  cases hc

variable (mode : g.mode ≠ .init) (reads : (g.revoking x).finish.guard.reads = g.reads) (good : g.foretoldGood)
  (hk : g.keysDiffer)
include mode reads good hk

theorem Guard.revoking_out : (g.revoking x).out = g.claims.map Claim.ending ++ g.revokedFault x := by
  obtain ⟨⟨-, ended, changes⟩, -⟩ := Guard.revoking_ends reads good hk
  rw [Guard.claimsOf_all all] at ended
  by_cases inside : (g.arm x).calculator.zone = .inside
  · have change := (g.claimsEnded_change x).trans (Event.raiseRevoked_change _ x)
    have none : ((g.claimsEnded x).raise x .revoked).guard.claims = [] := by
      rw [Event.raise_guard, Guard.onArm_claims]
      exact (g.claimsEnded_change x).no_claims all (g.claimsEnded_gone x)
    have unit := (g.claimsEnded_moves x).unit x
    have raised := (g.claimsEnded x).raise_changes x .revoked
    rw [changes, unit] at raised
    have level := (Guard.revoking_level mode inside).1
    have cfg := (g.revoking_change x).cfg
    rw [Guard.revoking_inside inside, Event.callEvaluation_guard] at level cfg
    rw [Guard.revoking_inside inside, Event.callEvaluation_out, Event.settleLevel_out (change.keysDiffer hk), none, raised,
      (Event.raise_only _ x .revoked).out, ended, List.filter_nil, show withdrawals [] = [] from rfl, ite_self]
    exact congrArg _ (Guard.revoked_faults g _ x cfg inside level)
  · rw [Guard.revoking_outside inside, Event.callEvaluation_out, ended]
    simp [Guard.revokedFault, inside, show g.event.out = [] from rfl]

theorem Guard.revoking_posted (ends : g.nothingEnds) :
    (g.revoking x).finish.out = g.claims.map Claim.ending ++ g.revokedFault x := by
  have steady := Guard.revoking_steady reads good hk
  have none := Guard.revoking_no_claims all
  have idle := (Event.finish_idle (ev := g.revoking x) (fun c hc => by rw [none] at hc; cases hc) steady.reached
    ((g.revoking_change x).nothingEnds ends)).1
  rw [idle, steady.late, Guard.revoking_out all mode reads good hk]
  exact List.append_nil _

end

/-! ## The request -/

/-- Settles O23: the claims by `Event.endClaims_counts` and `Event.endClaims_gone` whatever the reads find, and by
`Event.endClaims_good` with good reads; REVOKED by `Guard.revoking_revoked`, and what it brings by `Event.settleLevel`. -/
theorem revokeEndsEveryClaim : Obligations.RevokeEndsEveryClaim := by
  unfold Obligations.RevokeEndsEveryClaim
  intro s tag p serves length
  have fits : supervisorLengthOk 0x0A p = true := decide_eq_true length
  have served := Guard.serve_revoke s.link serves.1.2 fits
  refine ⟨fun none => ?_, fun x arm hk => ?_⟩
  · exact State.supervisor_answered serves tag rfl (served.trans (Guard.serveRevoke_none none))
  have mode := serves.1.2
  refine ⟨_, s.guard.countWithdrawn x, State.supervisor_served serves tag rfl (served.trans (Guard.serveRevoke_some hk arm)),
    ⟨_, rfl⟩, (Guard.claimsEnded_counts x hk).2, s.guard.revoking_gone x, s.guard.revoking_revoked x,
    ((s.guard.revoking_change x).trans (Event.finish_change _)).followedBy, fun ⟨good, reads⟩ => ?_⟩
  have unit := Guard.revoking_finish_unit reads good hk
  refine ⟨(Guard.revoking_ends reads good hk).2, ?_, fun inside _ => ?_, fun all ends => ?_⟩
  · exact congrArg (fun u : ActionUnit => u.sources.revoked) ((unit _).trans (s.guard.revoking_unit_other x))
  · obtain ⟨level, timers⟩ := Guard.revoking_level mode (of_decide_eq_true inside)
    exact ⟨(congrArg ActionUnit.level (unit x)).trans level, (unit x).symm ▸ timers⟩
  · refine congrArg _ ((Guard.revoking_posted all mode reads good hk ends).trans ?_)
    refine congrArg₂ (· ++ ·) (List.map_congr_left fun c hc => ?_) rfl
    rw [Claim.ending, all c hc]

end Sys2Proof.Machine

/-! # The accounts of the plan slots

`Guard.accountsOwing` is the order of the plan slots with one entry of one slot issued for which neither a claim nor an outcome
stands yet: what an issue leaves, and what a claim that leaves the table leaves. With nothing owed it is `Guard.plansInOrder`. -/

namespace Sys2Proof.Machine

/-! ## One slot's account -/

/-- A slot's account with a given number of issued entries that have no outcome yet (R116). -/
def Slot.accounts (s : Slot) (n : Nat) : Prop :=
  match s with
  | .empty => n = 0
  | .loaded p => n = 0 ∧ p.issued = 0 ∧ p.balances 0
  | .active p => p.issued < 65535 ∧ p.balances n
  | .finishing p => p.issued ≤ 65535 ∧ p.balances n

theorem Guard.slotAccounts_iff (g : Guard) (x : Arm) (i : SlotIx) :
    g.slotAccounts x i ↔ ((g.arm x).slot i).accounts (g.slotClaims x i) := by
  unfold Guard.slotAccounts Slot.accounts
  cases (g.arm x).slot i <;> rfl

/-- One outcome more, one open entry less (R111). -/
theorem Plan.tally_balances {p : Plan} {n : Nat} (le : p.issued ≤ 65535) (o : EntryOutcome) (h : p.balances (n + 1)) :
    (p.tally o).balances n := by
  unfold Plan.balances at h ⊢
  cases o <;> simp only [Plan.tally, sat16] <;> omega

theorem Plan.tally_issued (p : Plan) (o : EntryOutcome) : (p.tally o).issued = p.issued := by cases o <;> rfl

theorem Slot.accounts.tally {s : Slot} {n : Nat} (h : s.accounts (n + 1)) (o : EntryOutcome) :
    (s.onPlan (Plan.tally o)).accounts n := by
  cases s with
  | empty => exact absurd h (Nat.succ_ne_zero n)
  | loaded p => exact absurd h.1 (Nat.succ_ne_zero n)
  | active p => exact ⟨(p.tally_issued o).symm ▸ h.1, Plan.tally_balances (Nat.le_of_lt h.1) o h.2⟩
  | finishing p => exact ⟨(p.tally_issued o).symm ▸ h.1, Plan.tally_balances h.1 o h.2⟩

/-- A LOADED slot that becomes ACTIVE has issued nothing (R105). -/
theorem Slot.accounts.activated {s : Slot} {n : Nat} (h : s.accounts n) : s.activated.accounts n := by
  cases s with
  | loaded p =>
    obtain ⟨rfl, issued, balances⟩ := h
    exact ⟨by omega, balances⟩
  | empty | active p | finishing p => exact h

theorem Plan.issue_issued {p : Plan} (h : p.issued < 65535) : p.issue.1.issued = p.issued + 1 :=
  Nat.min_eq_left h

/-- One issued entry more (R108). -/
theorem Plan.issue_balances {p : Plan} {n : Nat} (lt : p.issued < 65535) (h : p.balances n) :
    p.issue.1.balances (n + 1) := by
  have issued := Plan.issue_issued lt
  unfold Plan.balances at h ⊢
  rw [issued, h]
  rfl

theorem Plan.balances.ended {p : Plan} {n : Nat} (h : p.balances n) (why : Option EndReason) :
    ({ p with endReason := why } : Plan).balances n := h

/-! ## The two slots of an arm -/

theorem Slot.onPlan_isActive (s : Slot) (f : Plan → Plan) : (s.onPlan f).isActive = s.isActive := by cases s <;> rfl

theorem Slot.onPlan_isLoaded (s : Slot) (f : Plan → Plan) : (s.onPlan f).isLoaded = s.isLoaded := by cases s <;> rfl

/-- The combinations of R105 from the side of one slot. -/
theorem ArmState.slotsPair_iff (a : ArmState) (i : SlotIx) : a.slotsPair ↔
    ¬((a.slot i).isActive = true ∧ (a.slot i.other).isActive = true) ∧
      ((a.slot i).isLoaded = true → (a.slot i.other).isActive = true) ∧
      ((a.slot i.other).isLoaded = true → (a.slot i).isActive = true) := by
  unfold ArmState.slotsPair
  cases i with
  | slot0 => rfl
  | slot1 =>
    rw [and_comm (a := a.slot0.isActive = true), and_comm (a := a.slot0.isLoaded = true → _)]
    rfl

/-- Slots that are ACTIVE and LOADED as before are in a combination as before. -/
theorem ArmState.slotsPair.congr {a b : ArmState} (h : a.slotsPair)
    (active : ∀ i, (b.slot i).isActive = (a.slot i).isActive) (loaded : ∀ i, (b.slot i).isLoaded = (a.slot i).isLoaded) :
    b.slotsPair := by
  rw [ArmState.slotsPair_iff b .slot0, active, loaded, active, loaded]
  exact (a.slotsPair_iff .slot0).1 h

/-- An ACTIVE slot whose plan moves on. -/
theorem ArmState.slotsPair.setActive {a : ArmState} {i : SlotIx} {p : Plan} (h : a.slotsPair) (active : a.slot i = .active p)
    (q : Plan) : (a.setSlot i (.active q)).slotsPair := by
  refine h.congr (fun j => ?_) fun j => ?_
  all_goals
    rw [ArmState.slot_setSlot_eq]
    split
    · rename_i e
      rw [e, active]
      rfl
    · rfl

/-- An ACTIVE slot that goes FINISHING, a LOADED one behind it becoming ACTIVE (R110). -/
theorem ArmState.slotsPair.finishSlot {a : ArmState} {i : SlotIx} {p : Plan} (h : a.slotsPair) (active : a.slot i = .active p)
    (q : Plan) (why : EndReason) : (a.finishSlot i q why).slotsPair := by
  obtain ⟨notBoth, -, -⟩ := (a.slotsPair_iff i).1 h
  rw [ArmState.finishSlot_eq, ArmState.slotsPair_iff _ i, ArmState.slot_setSlot, ArmState.slot_setSlot_eq,
    if_neg i.other_ne.symm, ArmState.slot_setSlot]
  rw [active] at notBoth
  cases other : a.slot i.other with
  | active r => exact absurd ⟨rfl, by rw [other]; rfl⟩ notBoth
  | empty | loaded r | finishing r => simp [Slot.activated, Slot.isActive, Slot.isLoaded]

theorem ArmState.onPlan_slot (a : ArmState) (i j : SlotIx) (f : Plan → Plan) :
    (a.onPlan i f).slot j = if j = i then (a.slot j).onPlan f else a.slot j := by
  cases i <;> cases j <;> rfl

/-- A plan changed in its slot. -/
theorem ArmState.slotsPair.onPlan {a : ArmState} (h : a.slotsPair) (i : SlotIx) (f : Plan → Plan) :
    (a.onPlan i f).slotsPair := by
  refine h.congr (fun j => ?_) fun j => ?_
  · rw [ArmState.onPlan_slot, apply_ite Slot.isActive, Slot.onPlan_isActive, ite_self]
  · rw [ArmState.onPlan_slot, apply_ite Slot.isLoaded, Slot.onPlan_isLoaded, ite_self]

/-- A slot emptied that was not ACTIVE. -/
theorem ArmState.slotsPair.setEmpty {a : ArmState} {i : SlotIx} (h : a.slotsPair) (idle : (a.slot i).isActive = false) :
    (a.setSlot i .empty).slotsPair := by
  obtain ⟨-, -, behind⟩ := (a.slotsPair_iff i).1 h
  rw [ArmState.slotsPair_iff _ i, ArmState.slot_setSlot, ArmState.slot_setSlot_other]
  rw [idle] at behind
  exact ⟨fun both => Bool.noConfusion both.1, fun loaded => Bool.noConfusion loaded, behind⟩

/-! ## The accounts of both arms -/

/-- The slot that a claim's entry was issued from. -/
def Claim.entrySlot (c : Claim) : Option (Arm × SlotIx) :=
  match c.origin with
  | .supervisor => none
  | .plan i _ => some (c.arm, i)

theorem Claim.fromSlot_iff (c : Claim) (x : Arm) (i : SlotIx) : c.fromSlot x i = true ↔ c.entrySlot = some (x, i) := by
  unfold Claim.fromSlot Claim.entrySlot
  cases c.origin <;> simp

/-- How many entries are owed to a slot. -/
def owedTo (owed : Option (Arm × SlotIx)) (x : Arm) (i : SlotIx) : Nat := if owed = some (x, i) then 1 else 0

/-- Claims told apart, every slot's account in order with one open entry more for the slot that is owed, and each arm's slots
in one of their combinations. -/
def Guard.accountsOwing (g : Guard) (owed : Option (Arm × SlotIx)) : Prop :=
  g.keysDiffer ∧ (∀ x i, ((g.arm x).slot i).accounts (g.slotClaims x i + owedTo owed x i)) ∧ ∀ x, (g.arm x).slotsPair

theorem Guard.plansInOrder_iff (g : Guard) : g.plansInOrder ↔ g.accountsOwing none := by
  unfold Guard.plansInOrder Guard.accountsOwing
  simp only [Guard.slotAccounts_iff]
  rfl

/-- What the accounts see of a claim: its name, and where its entry came from. -/
def Claim.account (c : Claim) : ClaimKey × Option (Arm × SlotIx) := (c.key, c.entrySlot)

/-- What the accounts see of the table. -/
def Guard.openEntries (g : Guard) : List (ClaimKey × Option (Arm × SlotIx)) := g.claims.map Claim.account

theorem Guard.keys_openEntries (g : Guard) : g.keys = g.openEntries.map Prod.fst := by
  rw [Guard.keys, Guard.openEntries, List.map_map]
  rfl

theorem Guard.slotClaims_openEntries (g : Guard) (x : Arm) (i : SlotIx) :
    g.slotClaims x i = g.openEntries.countP fun e => e.2 = some (x, i) := by
  rw [Guard.slotClaims, ← List.countP_eq_length_filter, Guard.openEntries, List.countP_map]
  refine List.countP_congr fun c _ => ?_
  rw [Claim.fromSlot_iff]
  exact decide_eq_true_iff.symm

/-- Two guards with the same open entries and the same slots. -/
structure Guard.SameAccounts (g h : Guard) : Prop where
  entries : h.openEntries = g.openEntries
  slot : ∀ x i, (h.arm x).slot i = (g.arm x).slot i

theorem Guard.SameAccounts.refl (g : Guard) : g.SameAccounts g := ⟨rfl, fun _ _ => rfl⟩

theorem Guard.SameAccounts.trans {g h k : Guard} (a : g.SameAccounts h) (b : h.SameAccounts k) : g.SameAccounts k :=
  ⟨b.entries.trans a.entries, fun x i => (b.slot x i).trans (a.slot x i)⟩

theorem Guard.SameAccounts.of_arms {g h : Guard} (claims : h.claims = g.claims) (arms : ∀ x, h.arm x = g.arm x) :
    g.SameAccounts h := ⟨by rw [Guard.openEntries, claims]; rfl, fun x i => by rw [arms]⟩

/-- A change of an arm beside its slots. -/
theorem Guard.SameAccounts.beside (g : Guard) (x : Arm) {f : ArmState → ArmState} (slots : ∀ a i, (f a).slot i = a.slot i) :
    g.SameAccounts (g.onArm x f) := by
  refine ⟨by rw [Guard.openEntries, Guard.onArm_claims]; rfl, fun y i => ?_⟩
  rw [Guard.arm_onArm_eq]
  split
  · exact slots _ i
  · rfl

/-- Claims changed one by one, under their names and with their origins. -/
theorem Guard.SameAccounts.mapped {g h : Guard} (f : Claim → Claim) (claims : h.claims = g.claims.map f)
    (arms : ∀ x, h.arm x = g.arm x) (same : ∀ c : Claim, (f c).account = c.account) : g.SameAccounts h := by
  refine ⟨?_, fun x i => by rw [arms]⟩
  rw [Guard.openEntries, claims, List.map_map]
  exact List.map_congr_left fun c _ => same c

theorem Guard.SameAccounts.accountsOwing {g h : Guard} (s : g.SameAccounts h) {owed : Option (Arm × SlotIx)}
    (ok : g.accountsOwing owed) : h.accountsOwing owed := by
  obtain ⟨differ, accounts, pairs⟩ := ok
  refine ⟨?_, fun x i => ?_, fun x => (pairs x).congr (fun i => by rw [s.slot]) fun i => by rw [s.slot]⟩
  · rw [Guard.keysDiffer, Guard.keys_openEntries, s.entries, ← Guard.keys_openEntries]
    exact differ
  · rw [s.slot, Guard.slotClaims_openEntries, s.entries, ← Guard.slotClaims_openEntries]
    exact accounts x i

/-- A change of the slots of one arm, with what it leaves owed. -/
theorem Guard.accountsOwing.onArm {g : Guard} {owed owed' : Option (Arm × SlotIx)} (h : g.accountsOwing owed) (x : Arm)
    {f : ArmState → ArmState} (pair : (f (g.arm x)).slotsPair)
    (accounts : ∀ i, ((f (g.arm x)).slot i).accounts (g.slotClaims x i + owedTo owed' x i))
    (beside : ∀ y i, x ≠ y → owedTo owed' y i = owedTo owed y i) : (g.onArm x f).accountsOwing owed' := by
  obtain ⟨differ, before, pairs⟩ := h
  refine ⟨by rw [Guard.keysDiffer, Guard.keys, Guard.onArm_claims]; exact differ, fun y i => ?_, fun y => ?_⟩
  · rw [show (g.onArm x f).slotClaims y i = g.slotClaims y i by rw [Guard.slotClaims, Guard.onArm_claims]; rfl,
      Guard.arm_onArm_eq]
    split
    · rename_i e
      exact e ▸ accounts i
    · rename_i e
      rw [beside y i e]
      exact before y i
  · rw [Guard.arm_onArm_eq]
    split
    · rename_i e
      exact e ▸ pair
    · exact pairs y

/-! ## Claims that leave, and outcomes -/

/-- A claim of the table that leaves leaves its entry owed. -/
theorem Guard.accountsOwing.removeClaim {g : Guard} (h : g.accountsOwing none) {c : Claim} (hc : c ∈ g.claims) :
    (g.removeClaim c.key).accountsOwing c.entrySlot := by
  obtain ⟨differ, accounts, pairs⟩ := h
  have only : g.claims.filter (fun d => d.key = c.key) = [c] := by
    have nodup : (g.claims.filter fun d => d.key = c.key).Nodup := (List.Nodup.of_map _ differ).filter _
    refine List.perm_singleton.1 ((List.perm_ext_iff_of_nodup nodup (List.nodup_singleton c)).2 fun d => ?_)
    rw [List.mem_filter, List.mem_singleton, decide_eq_true_iff]
    exact ⟨fun ⟨hd, e⟩ => differ.eq hd hc e, fun e => ⟨e ▸ hc, e ▸ rfl⟩⟩
  have count : ∀ x i, g.slotClaims x i = (g.removeClaim c.key).slotClaims x i + owedTo c.entrySlot x i := by
    intro x i
    unfold Guard.slotClaims Guard.removeClaim owedTo
    rw [← List.countP_eq_length_filter, ← List.countP_eq_length_filter,
      List.countP_eq_countP_filter_add g.claims _ fun d => d.key = c.key, only, List.countP_singleton, Nat.add_comm]
    simp only [Claim.fromSlot_iff, decide_not]
  refine ⟨differ.sublist (List.filter_sublist.map _), fun x i => ?_, fun x => ?_⟩
  · rw [Guard.removeClaim_arm, ← count x i]
    exact accounts x i
  · rw [Guard.removeClaim_arm]
    exact pairs x

/-- An owed entry gets its outcome. -/
theorem Event.tally_pays {ev : Event} {x : Arm} {i : SlotIx} (h : ev.guard.accountsOwing (some (x, i))) (o : EntryOutcome) :
    (ev.tally x i o).guard.accountsOwing none := by
  rw [Event.tally_eq, Event.onGuard_guard]
  refine (Guard.SameAccounts.beside _ x fun a j => a.signalled_slot o.event 1 j).accountsOwing ?_
  obtain ⟨differ, accounts, pairs⟩ := id h
  refine h.onArm x ((pairs x).onPlan i _) (fun j => ?_) fun y j e => ?_
  · have account := accounts x j
    rw [ArmState.onPlan_slot]
    split
    · rename_i e
      subst e
      rw [owedTo, if_pos rfl] at account
      exact account.tally o
    · rename_i e
      rw [owedTo, if_neg fun same => e (Prod.mk.inj (Option.some.inj same)).2.symm] at account
      exact account
  · exact (if_neg fun same => e (Prod.mk.inj (Option.some.inj same)).1).symm

/-- The end of a claim pays for its entry. -/
theorem Event.settleEntry_pays {ev : Event} {c : Claim} (h : ev.guard.accountsOwing c.entrySlot) (o : EntryOutcome) :
    (ev.settleEntry c o).guard.accountsOwing none := by
  unfold Claim.entrySlot at h
  unfold Event.settleEntry
  split
  · rename_i e
    rw [e] at h
    exact h
  · rename_i i n e
    rw [e] at h
    exact Event.tally_pays h o

end Sys2Proof.Machine

/-! # The shared operations keep the accounts of the plan slots

Every operation of an event but the end of a claim and the end of a plan leaves the open entries and the slots alone; a claim
that ends pays for its entry, and a plan ends only where nothing is open. -/

namespace Sys2Proof.Machine

/-! ## The relation -/

/-- The second guard's accounts are in order where the first's are. -/
def Guard.KeepsAccounts (g h : Guard) : Prop := g.accountsOwing none → h.accountsOwing none

theorem Guard.KeepsAccounts.refl (g : Guard) : g.KeepsAccounts g := id

theorem Guard.KeepsAccounts.trans {g h k : Guard} (a : g.KeepsAccounts h) (b : h.KeepsAccounts k) : g.KeepsAccounts k := b ∘ a

theorem Guard.SameAccounts.keeps {g h : Guard} (s : g.SameAccounts h) : g.KeepsAccounts h := s.accountsOwing

/-- A fold of operations that each keep the accounts. -/
theorem Event.foldl_accounts {α : Type} {f : Event → α → Event}
    (h : ∀ (ev : Event) (a : α), ev.guard.KeepsAccounts (f ev a).guard) (as : List α) (ev : Event) :
    ev.guard.KeepsAccounts (as.foldl f ev).guard := by
  induction as generalizing ev with
  | nil => exact .refl _
  | cons a as ih => exact .trans (h ev a) (ih _)

/-! ## Changes beside the accounts -/

theorem Guard.reindex_sameAccounts (g : Guard) (cells : CellSet) : g.SameAccounts (g.reindex cells) :=
  .of_arms (g.reindex_claims cells) (g.reindex_arm cells)

theorem Guard.onClaim_sameAccounts (g : Guard) (k : ClaimKey) {f : Claim → Claim}
    (same : ∀ c : Claim, (f c).account = c.account) : g.SameAccounts (g.onClaim k f) := by
  refine .mapped (fun c => if c.key = k then f c else c) rfl (Guard.onClaim_arm g k f) fun c => ?_
  rw [apply_ite Claim.account, same, ite_self]

theorem Guard.succeed_sameAccounts (g : Guard) (c : Claim) : g.SameAccounts (g.succeed c) := by
  unfold Guard.succeed
  split
  · refine .mapped _ rfl (g.promote_arm c.arm.other) fun d => ?_
    split <;> rfl
  · exact .refl g

theorem Guard.onVacate_sameAccounts (g : Guard) (x : Arm) (f : CellSet → CellSet) : g.SameAccounts (g.onVacate x f) :=
  .beside g x fun _ i => by cases i <;> rfl

theorem Guard.onUnit_sameAccounts (g : Guard) (x : Arm) (f : ActionUnit → ActionUnit) : g.SameAccounts (g.onUnit x f) :=
  .beside g x fun _ i => by cases i <;> rfl

theorem Guard.signal_sameAccounts (g : Guard) (x : Arm) (e : CountEvent) (n : Nat) : g.SameAccounts (g.signal x e n) :=
  .beside g x fun a i => a.signalled_slot e n i

theorem Guard.onSection_sameAccounts (g : Guard) (s : Nat) (f : SectionState → SectionState) :
    g.SameAccounts (g.onSection s f) := .of_arms rfl (g.onSection_arm s f)

/-! ## Claims that leave -/

theorem Event.leaveWaiting_accounts {ev : Event} {c : Claim} (hc : c ∈ ev.guard.claims) (n : ArmNotice) :
    ev.guard.KeepsAccounts (ev.leaveWaiting c n).guard := fun h =>
  Event.settleEntry_pays (ev := (ev.onGuard fun g => ((g.removeClaim c.key).succeed c).reindex c.reserved).post (.toArm c.arm n))
    (((Guard.succeed_sameAccounts _ c).trans (Guard.reindex_sameAccounts _ c.reserved)).accountsOwing (h.removeClaim hc))
    .missed

theorem Event.bounce_accounts {ev : Event} {c : Claim} (hc : c ∈ ev.guard.claims) (why : BounceReason) :
    ev.guard.KeepsAccounts (ev.bounce c why).guard := Event.leaveWaiting_accounts hc _

theorem Event.withdrawAll_accounts (ev : Event) (p : Claim → Bool) : ev.guard.KeepsAccounts (ev.withdrawAll p).guard := by
  refine Event.foldl_accounts (fun ev k => ?_) _ ev
  split
  · rename_i found
    exact Event.leaveWaiting_accounts (Guard.claim?_some found).1 _
  · exact .refl _

/-! ## Reads -/

theorem Guard.drawFinding_sameAccounts (g : Guard) : g.SameAccounts g.drawFinding.2 :=
  .of_arms g.drawFinding_claims g.drawFinding_arm

theorem Event.rise_sameAccounts (ev : Event) (s n : Nat) : ev.guard.SameAccounts (ev.rise s n).guard :=
  .of_arms (ev.rise_claims s n) (ev.rise_arm s n)

theorem Event.uncorrectable_sameAccounts (ev : Event) (c : Cell) : ev.guard.SameAccounts (ev.uncorrectable c).guard :=
  .of_arms (ev.uncorrectable_claims c) (ev.uncorrectable_arm c)

theorem Event.poison_sameAccounts (ev : Event) (c : Cell) : ev.guard.SameAccounts (ev.poison c).guard := by
  refine ⟨List.map_map.trans rfl, fun x i => ?_⟩
  rw [show (ev.poison c).guard.arm x = _ from ev.guard.poisonCell_arm c x]
  cases i <;> rfl

theorem Event.readRaw_sameAccounts (ev : Event) (who : Reader) (c : Cell) :
    ev.guard.SameAccounts (ev.readRaw who c).1.guard := by
  unfold Event.readRaw
  split
  · exact .refl _
  · dsimp only
    refine ev.guard.drawFinding_sameAccounts.trans ?_
    have spoiled := Event.uncorrectable_sameAccounts { ev with guard := ev.guard.drawFinding.2 } c
    split
    · exact .refl _
    · exact (Event.rise_sameAccounts { ev with guard := ev.guard.drawFinding.2 } c.sec 1).trans
        (Guard.onSection_sameAccounts _ _ _)
    · rw [Event.postRead_guard]
      exact spoiled
    · rw [Event.postRead_guard]
      refine spoiled.trans (Guard.SameAccounts.trans ?_ (Event.poison_sameAccounts _ c))
      rw [Event.postRead_guard]
      exact .refl _

theorem Event.formRaw_sameAccounts (ev : Event) (cells : CellSet) : ev.guard.SameAccounts (ev.formRaw cells).1.guard := by
  induction cells generalizing ev with
  | nil => exact .refl _
  | cons c cs ih => exact (ev.readRaw_sameAccounts .arbiter c).trans (ih _)

theorem Guard.refit_sameAccounts (g : Guard) (k : ClaimKey) (old kept : CellSet) (count : Nat) :
    g.SameAccounts (g.refit k old kept count) := by
  refine Guard.SameAccounts.trans ?_ (Guard.reindex_sameAccounts _ (minusCells old kept))
  exact g.onClaim_sameAccounts k fun _ => rfl

theorem Event.reform_accounts (ev : Event) (k : ClaimKey) : ev.guard.KeepsAccounts (ev.reform k).guard := by
  unfold Event.reform
  split
  · exact .refl _
  · rename_i c _
    dsimp only
    have refitted := ((ev.formRaw_sameAccounts (c.shape.cells ev.guard.cfg)).trans
      (Guard.refit_sameAccounts _ k c.reserved (ev.formRaw (c.shape.cells ev.guard.cfg)).2
        (c.shape.cells ev.guard.cfg).length)).keeps
    split
    · rename_i found
      split
      · refine fun h => Event.bounce_accounts ?_ .empty (refitted h)
        exact (Guard.claim?_some found).1
      · exact refitted
    · exact refitted

theorem Event.settleRounds_accounts (n : Nat) (ev : Event) : ev.guard.KeepsAccounts (ev.settleRounds n).guard := by
  induction n generalizing ev with
  | zero => exact .refl _
  | succ n ih =>
    unfold Event.settleRounds
    split
    · exact .refl _
    · exact .trans (Event.foldl_accounts Event.reform_accounts _ { ev with touched := [] }) (ih _)

theorem Event.settle_accounts (ev : Event) : ev.guard.KeepsAccounts ev.settle.guard := ev.settleRounds_accounts 769

theorem Event.readCell_accounts (ev : Event) (who : Reader) (c : Cell) :
    ev.guard.KeepsAccounts (ev.readCell who c).1.guard :=
  (ev.readRaw_sameAccounts who c).keeps.trans (Event.settle_accounts _)

theorem Event.readCells_accounts (ev : Event) (who : Reader) (cells : CellSet) :
    ev.guard.KeepsAccounts (ev.readCells who cells).1.guard := by
  induction cells generalizing ev with
  | nil => exact .refl _
  | cons c cs ih => exact .trans (ev.readCell_accounts who c) (ih _)

theorem Event.form_accounts (ev : Event) (cells : CellSet) : ev.guard.KeepsAccounts (ev.form cells).1.guard :=
  ev.readCells_accounts .arbiter cells

theorem Event.rewriteAll_accounts (ev : Event) (cause : PoisonCause) (cells : CellSet) :
    ev.guard.KeepsAccounts (ev.rewriteAll cause cells).guard := by
  refine Event.foldl_accounts (fun ev c => ?_) cells ev
  dsimp only
  have rewritten : ev.guard.SameAccounts (ev.rewrite c).1.guard :=
    .trans (h := ev.guard.reindexCell c) (.of_arms rfl (ev.guard.reindexCell_arm c)) (Guard.drawFinding_sameAccounts _)
  split
  · exact rewritten.keeps
  · exact (rewritten.trans (Event.poison_sameAccounts _ c)).keeps.trans (Event.settle_accounts _)

/-! ## The evaluation -/

theorem Event.testCells_accounts (ev : Event) (x : Arm) (ok : Bool) (cells : CellSet) :
    ev.guard.KeepsAccounts (ev.testCells x ok cells).1.guard := by
  induction cells generalizing ev ok with
  | nil => exact .refl _
  | cons c cs ih =>
    unfold Event.testCells
    dsimp only
    split
    · exact ev.readCell_accounts _ _
    · exact .trans (ev.readCell_accounts _ _) (ih _ _)

theorem Event.testClaim_accounts (n : Nat) (ev : Event) (k : ClaimKey) :
    ev.guard.KeepsAccounts (ev.testClaim n k).1.guard := by
  induction n generalizing ev with
  | zero => exact .refl _
  | succ n ih =>
    unfold Event.testClaim
    split
    · exact .refl _
    · rename_i c _
      have tested := ev.testCells_accounts c.arm true c.effective
      generalize ev.testCells c.arm true c.effective = r at tested ⊢
      obtain ⟨ev', ok⟩ := r
      cases ok with
      | none => exact .trans tested (ih _)
      | some ok =>
        dsimp only
        split
        · exact tested
        · exact .trans tested (ih _)

theorem Guard.grant_sameAccounts (g : Guard) (c : Claim) : g.SameAccounts (g.grant c) := by
  have granted := g.onClaim_sameAccounts c.key (f := Claim.granted) fun _ => rfl
  have taken := Guard.onVacate_sameAccounts (g.onClaim c.key Claim.granted) c.arm fun v => minusCells v c.effective
  have named : ∀ k : Guard, k.SameAccounts { k with lastGranted := c.arm } := fun k => .of_arms rfl fun x => by cases x <;> rfl
  exact (((granted.trans taken).trans (Guard.succeed_sameAccounts _ c)).trans (named _)).trans
    (Guard.reindex_sameAccounts _ (unionCells c.effective c.reserved))

theorem Event.grant_sameAccounts (ev : Event) (c : Claim) : ev.guard.SameAccounts (ev.grant c).guard :=
  ((ev.guard.grant_sameAccounts c).trans (Guard.signal_sameAccounts _ _ _ _)).trans (Guard.signal_sameAccounts _ _ _ _)

theorem Guard.reserve_sameAccounts (g : Guard) (c : Claim) : g.SameAccounts (g.reserve c) := by
  refine Guard.SameAccounts.trans ?_ (Guard.reindex_sameAccounts _ _)
  exact g.onClaim_sameAccounts c.key fun _ => rfl

theorem Event.takeCandidate_accounts (ev : Event) (k : ClaimKey) : ev.guard.KeepsAccounts (ev.takeCandidate k).guard := by
  unfold Event.takeCandidate
  refine .trans (ev.testClaim_accounts 769 k) ?_
  dsimp only
  split
  · exact .refl _
  · split
    · exact (Event.grant_sameAccounts _ _).keeps
    · split
      · exact (Guard.reserve_sameAccounts _ _).keeps
      · exact .refl _

theorem Event.evaluateRounds_accounts (n : Nat) (ev : Event) (taken : List ClaimKey) :
    ev.guard.KeepsAccounts (ev.evaluateRounds n taken).guard := by
  induction n generalizing ev taken with
  | zero => exact .refl _
  | succ n ih =>
    unfold Event.evaluateRounds
    split
    · exact .refl _
    · exact .trans (Event.takeCandidate_accounts { ev with reformed := [] } _) (ih _ _)

theorem Event.runEvaluation_accounts (ev : Event) : ev.guard.KeepsAccounts ev.runEvaluation.guard := by
  unfold Event.runEvaluation
  split
  · exact .refl _
  · exact ev.evaluateRounds_accounts 4000 []

theorem Event.evaluateIfCalled_accounts (ev : Event) : ev.guard.KeepsAccounts ev.evaluateIfCalled.guard := by
  unfold Event.evaluateIfCalled
  split
  · exact ev.runEvaluation_accounts
  · exact .refl _

/-! ## The action unit and the handover -/

theorem Event.raise_sameAccounts (ev : Event) (x : Arm) (src : Source) : ev.guard.SameAccounts (ev.raise x src).guard := by
  rw [Event.raise_guard]
  exact .beside _ x fun _ i => by cases i <;> rfl

theorem Guard.changeLevel_sameAccounts (g : Guard) (x : Arm) (l : Level) : g.SameAccounts (g.changeLevel x l) := by
  unfold Guard.changeLevel Guard.followLines
  exact (g.onUnit_sameAccounts x _).trans (Guard.onUnit_sameAccounts _ x _)

theorem Event.computeLevel_accounts (ev : Event) (x : Arm) : ev.guard.KeepsAccounts (ev.computeLevel x).guard := by
  unfold Event.computeLevel
  dsimp only
  have leveled := (ev.guard.changeLevel_sameAccounts x (ev.guard.levelFor x)).keeps
  split
  · exact .refl _
  · split
    · exact leveled.trans (Event.withdrawAll_accounts (ev.onGuard fun g => g.changeLevel x (ev.guard.levelFor x)) _)
    · exact leveled

theorem Event.settleLevel_accounts (ev : Event) (x : Arm) : ev.guard.KeepsAccounts (ev.settleLevel x).guard := by
  rw [Event.settleLevel_guard]
  exact ev.computeLevel_accounts x

theorem Event.latchRevoked_accounts (ev : Event) (named : Arm → Bool) :
    ev.guard.KeepsAccounts (ev.latchRevoked named).guard := by
  have latch : ∀ (e : Event) (x : Arm), e.guard.SameAccounts
      (if named x && (e.guard.arm x).calculator.zone = .inside then e.raise x .revoked else e).guard := by
    intro e x
    split
    · exact e.raise_sameAccounts x .revoked
    · exact .refl _
  unfold Event.latchRevoked
  rw [Event.postFaults_guard]
  exact .trans (.trans ((latch ev .A).trans (latch _ .B)).keeps (Event.computeLevel_accounts _ .A))
    (Event.computeLevel_accounts _ .B)

theorem Event.endHeld_accounts (ev : Event) (k : ClaimKey) (o : EntryOutcome) :
    ev.guard.KeepsAccounts (ev.endHeld k o).guard := by
  unfold Event.endHeld
  split
  · exact .refl _
  · dsimp only
    rename_i c _
    refine .trans (ev.readCells_accounts .handover (ev.guard.ownCellsOf c)) ?_
    split
    · exact .refl _
    · rename_i d found
      obtain ⟨hd, rfl⟩ := Guard.claim?_some found
      have paid : ∀ e : Event, d ∈ e.guard.claims →
          e.guard.KeepsAccounts ((e.onGuard fun g => g.removeClaim d.key).settleEntry d o).guard := fun e hd h =>
        Event.settleEntry_pays (ev := e.onGuard fun g => g.removeClaim d.key) (h.removeClaim hd) o
      refine .trans (paid _ hd) ?_
      split
      · exact (Guard.reindex_sameAccounts _ _).keeps
      · exact ((Guard.onVacate_sameAccounts _ d.arm _).trans (Guard.reindex_sameAccounts _ _)).keeps

theorem Event.vacateProgress_accounts (ev : Event) (x : Arm) : ev.guard.KeepsAccounts (ev.vacateProgress x).guard :=
  (ev.readCells_accounts _ _).trans
    ((Guard.onVacate_sameAccounts _ x _).trans (Guard.reindex_sameAccounts _ _)).keeps

theorem Event.handOver_accounts (ev : Event) (x : Arm) (previous : Zone) :
    ev.guard.KeepsAccounts (ev.handOver x previous).guard := by
  unfold Event.handOver
  dsimp only
  refine .trans ?_ (Event.vacateProgress_accounts _ x)
  split
  · exact Event.foldl_accounts (fun ev k => ev.endHeld_accounts k .picked) _ ev
  · exact .refl _

theorem Event.endClaims_accounts (ev : Event) (ks : List ClaimKey) : ev.guard.KeepsAccounts (ev.endClaims ks).1.guard := by
  induction ks generalizing ev with
  | nil => exact .refl _
  | cons k ks ih =>
    unfold Event.endClaims
    split
    · exact ih ev
    · rename_i c found
      split
      · exact .trans (Event.endHeld_accounts (ev.post _) c.key .missed) (ih _)
      · exact .trans (Event.leaveWaiting_accounts (Guard.claim?_some found).1 _) (ih _)

/-! ## Retirement, flush, and the end of an event -/

theorem Guard.retireSection_sameAccounts (g : Guard) (s : Nat) : g.SameAccounts (g.retireSection s) :=
  .mapped (fun c => { c with reserved := c.reserved.filter fun d => d.sec ≠ s }) (Guard.reindex_claims _ _)
    (g.retireSection_arm s) fun _ => rfl

theorem Event.retire_accounts (ev : Event) (s : Nat) : ev.guard.KeepsAccounts (ev.retire s).guard := by
  unfold Event.retire
  dsimp only
  refine .trans ?_ (Event.runEvaluation_accounts _)
  simp only [Event.onGuard_guard, Event.post_guard]
  refine .trans ?_ (Guard.SameAccounts.of_arms rfl (Guard.restartScrub_arms _)).keeps
  refine .trans ?_ (Event.settle_accounts _)
  dsimp only
  refine .trans ?_ (Event.latchRevoked_accounts _ _)
  refine .trans ?_ (Event.endClaims_accounts _ _)
  dsimp only [Event.onGuard_guard]
  exact (ev.readCells_accounts _ _).trans (Guard.retireSection_sameAccounts _ s).keeps

theorem Event.flush_accounts (ev : Event) (s : Nat) : ev.guard.KeepsAccounts (ev.flush s).guard := by
  unfold Event.flush
  dsimp only
  refine .trans ?_ (Event.runEvaluation_accounts _)
  simp only [Event.onGuard_guard, Event.post_guard]
  refine .trans ?_ (Guard.onSection_sameAccounts _ s _).keeps
  refine .trans ?_ (Event.rewriteAll_accounts _ _ _)
  simp only [Event.onGuard_guard]
  refine .trans ?_ (Guard.reindex_sameAccounts _ _).keeps
  exact (ev.endClaims_accounts _).trans (Event.latchRevoked_accounts _ _)

theorem Event.dealWithSections_accounts (n : Nat) (ev : Event) :
    ev.guard.KeepsAccounts (ev.dealWithSections n).guard := by
  induction n generalizing ev with
  | zero => exact .refl _
  | succ n ih =>
    unfold Event.dealWithSections
    split
    · exact .refl _
    · refine .trans ?_ (ih _)
      split
      · exact .refl _
      · split
        · exact ev.retire_accounts _
        · exact ev.flush_accounts _

theorem Guard.slotClaims_eq_zero {g : Guard} {x : Arm} {i : SlotIx} (none : g.slotHasClaim x i = false) :
    g.slotClaims x i = 0 :=
  List.length_eq_zero_iff.2 (List.filter_eq_nil_iff.2 (List.any_eq_false.1 none))

/-- A plan ends with nothing open (R112). -/
theorem Event.endPlan_accounts (ev : Event) (x : Arm) (i : SlotIx) : ev.guard.KeepsAccounts (ev.endPlan x i).guard := by
  rcases ev.endPlan_cases x i with ⟨p, finishing, none, e⟩ | ⟨-, e⟩
  · rw [e]
    intro h
    obtain ⟨-, accounts, pairs⟩ := id h
    refine h.onArm x ((pairs x).setEmpty (by rw [finishing]; rfl)) (fun j => ?_) fun _ _ _ => rfl
    rw [ArmState.slot_setSlot_eq]
    split
    · rename_i same
      rw [same, Guard.slotClaims_eq_zero none]
      rfl
    · exact accounts x j
  · rw [e]
    exact .refl _

theorem Event.endPlans_accounts (ev : Event) : ev.guard.KeepsAccounts ev.endPlans.guard :=
  Event.foldl_accounts (f := fun ev (j : Arm × SlotIx) => ev.endPlan j.1 j.2) (fun ev j => ev.endPlan_accounts j.1 j.2) _
    { ev with judged := [] }

theorem Event.endDraining_sameAccounts (ev : Event) : ev.guard.SameAccounts ev.endDraining.guard := by
  refine .of_arms ?_ (Event.endDraining_arm ev)
  unfold Event.endDraining
  split <;> rfl

theorem Event.finish_accounts (ev : Event) : ev.guard.KeepsAccounts ev.finish.guard :=
  .trans (.trans (.trans ev.evaluateIfCalled_accounts (Event.dealWithSections_accounts 8 ev.evaluateIfCalled.afterReply))
    (Event.endPlans_accounts _)) (Event.endDraining_sameAccounts _).keeps

end Sys2Proof.Machine

/-! # Every step keeps the accounts of the plan slots (O54)

LOAD_PLAN fills a slot that has no claim, DROP_PLAN naming ACTIVE finishes a plan as it stands, REQUEST and SKIP issue an entry
that gets its claim or its outcome at once; every other event is made of the shared operations and of changes beside the
accounts. -/

namespace Sys2Proof.Machine

/-! ## What follows an ACTIVE slot -/

theorem ArmState.keeps.slot {a b : ArmState} (h : a.keeps b) (i : SlotIx) : (a.slot i).follows (b.slot i) := by
  obtain ⟨-, -, -, -, -, -, slot0, slot1⟩ := h
  cases i
  · exact slot0
  · exact slot1

/-- The shared operations leave an ACTIVE slot ACTIVE and its plan on its course. -/
theorem Slot.follows.active {p : Plan} {s : Slot} (h : (Slot.active p).follows s) : ∃ q, s = .active q ∧ p.sameCourse q := by
  cases s with
  | active q => exact ⟨q, rfl, h⟩
  | empty | loaded q | finishing q => exact h.elim

theorem Guard.Change.activeSlot {g h : Guard} (c : Guard.Change g h) {x : Arm} {i : SlotIx} {p : Plan}
    (active : (g.arm x).slot i = .active p) : ∃ q, (h.arm x).slot i = .active q ∧ p.sameCourse q :=
  Slot.follows.active (active ▸ (c.armKeeps x).slot i)

/-! ## CONFIGURE, START, STOP and RESTART -/

theorem Event.actionsChanged_accounts (ev : Event) (old : ConfigSet) (x : Arm) :
    ev.guard.KeepsAccounts (ev.actionsChanged old x).guard := by
  unfold Event.actionsChanged
  split
  · exact .refl _
  · exact ev.settleLevel_accounts x

theorem Guard.placed_sameAccounts (g : Guard) (c : ConfigSet) : g.SameAccounts (g.placed c) := by
  refine ⟨rfl, fun x i => ?_⟩
  rw [Guard.placed_arm]
  cases i <;> rfl

theorem Guard.applyConfig_accounts (g : Guard) (c : ConfigSet) : g.KeepsAccounts (g.applyConfig c).guard := by
  unfold Guard.applyConfig
  dsimp only
  refine .trans ?_ (.trans (Event.actionsChanged_accounts _ g.cfg .A) (Event.actionsChanged_accounts _ g.cfg .B))
  rw [Guard.event_guard]
  split
  · exact (Guard.SameAccounts.of_arms rfl fun x => by cases x <;> rfl).keeps
  · rw [Guard.changeGeometry_eq]
    exact (((g.placed_sameAccounts c).trans (Guard.reindex_sameAccounts _ storeCells)).trans
      (.of_arms (Guard.restartScrub_claims _) (Guard.restartScrub_arms _))).keeps

theorem Guard.serveConfigure_accounts (g : Guard) (p : List Byte) : g.KeepsAccounts (g.serveConfigure p).1.guard := by
  unfold Guard.serveConfigure
  split
  · exact .refl g
  · dsimp only
    split
    · exact .refl g
    · split
      · exact .refl g
      · split
        · exact .refl g
        · exact g.applyConfig_accounts _

theorem Guard.withMode_sameAccounts (g : Guard) (m : Mode) : g.SameAccounts { g with mode := m } :=
  .of_arms rfl fun x => by cases x <;> rfl

theorem Guard.enterGuard_accounts (g : Guard) : g.KeepsAccounts g.enterGuard.1.guard := (g.withMode_sameAccounts _).keeps

theorem Guard.serveStart_accounts (g : Guard) : g.KeepsAccounts g.serveStart.1.guard := by
  unfold Guard.serveStart
  split
  · exact .refl g
  · exact g.enterGuard_accounts
  · split
    · exact .refl g
    · exact g.enterGuard_accounts

theorem Guard.serveStop_accounts (g : Guard) : g.KeepsAccounts g.serveStop.1.guard := by
  unfold Guard.serveStop
  split
  · exact .refl g
  · exact (g.event.withdrawAll_accounts Claim.isPlan).trans (Guard.withMode_sameAccounts _ _).keeps

/-- An empty table and empty slots are in order. -/
theorem Guard.accountsOwing_nothing {g : Guard} (claims : g.claims = []) (slots : ∀ x i, (g.arm x).slot i = .empty) :
    g.accountsOwing none := by
  refine ⟨?_, fun x i => ?_, fun x => ?_⟩
  · rw [Guard.keysDiffer, Guard.keys, claims]
    exact List.nodup_nil
  · rw [slots, Guard.slotClaims, claims]
    rfl
  · rw [ArmState.slotsPair_iff _ .slot0, slots, slots]
    decide

theorem Guard.restarted_accounts (g : Guard) : g.KeepsAccounts g.restarted := fun _ =>
  Guard.accountsOwing_nothing g.restarted_claims fun x i => by cases x <;> cases i <;> rfl

theorem Guard.serveRestart_accounts (g : Guard) : g.KeepsAccounts g.serveRestart.1.guard := by
  obtain ⟨ev, hev, e⟩ := g.serveRestart_guard
  rw [e, Event.post_guard]
  refine .trans ?_ (ev.rewriteAll_accounts _ _)
  rw [hev]
  exact g.restarted_accounts

/-! ## FENCE and UNFENCE -/

theorem Event.addFences_accounts (ev : Event) (cells : CellSet) : ev.guard.KeepsAccounts (ev.addFences cells).guard := by
  rw [Event.addFences_eq, Event.fencesChanged_eq]
  refine .trans ?_ ((ev.fenced cells).touching cells).settle_accounts
  exact (Guard.SameAccounts.mapped (fun c => { c with reserved := minusCells c.reserved cells }) (Guard.reindex_claims _ _)
    (ev.fenced_refences cells).arm fun _ => rfl).keeps

theorem Event.dropFences_accounts (ev : Event) (cells : CellSet) : ev.guard.KeepsAccounts (ev.dropFences cells).guard := by
  rw [Event.dropFences_eq, Event.fencesChanged_eq]
  refine .trans ?_ ((ev.unfenced cells).touching cells).settle_accounts
  exact (Guard.SameAccounts.of_arms (Guard.reindex_claims _ _) (ev.unfenced_refences cells).arm).keeps

theorem Guard.serveFence_accounts (g : Guard) (p : List Byte) : g.KeepsAccounts (g.serveFence p).1.guard := by
  unfold Guard.serveFence
  split
  · exact .refl g
  · exact .trans (g.event.readCells_accounts _ _) (Event.addFences_accounts _ _)

theorem Guard.serveUnfence_accounts (g : Guard) (p : List Byte) : g.KeepsAccounts (g.serveUnfence p).1.guard := by
  unfold Guard.serveUnfence
  split
  · exact .refl g
  · exact .trans (g.event.readCells_accounts _ _) (Event.dropFences_accounts _ _)

/-! ## LOAD_PLAN and DROP_PLAN -/

theorem ArmState.activePlan_none {a : ArmState} (h : a.activePlan = none) (i : SlotIx) : (a.slot i).isActive = false := by
  unfold ArmState.activePlan at h
  cases i with
  | slot0 =>
    cases s : a.slot0 with
    | active p => simp [s] at h
    | _ => simp [ArmState.slot, s, Slot.isActive]
  | slot1 =>
    cases s : a.slot1 with
    | active p => cases t : a.slot0 <;> simp [s, t] at h
    | _ => simp [ArmState.slot, s, Slot.isActive]

theorem ArmState.loadedPlan_some {a : ArmState} {i : SlotIx} {p : Plan} (h : a.loadedPlan = some (i, p)) :
    a.slot i = .loaded p := by
  unfold ArmState.loadedPlan at h
  split at h
  · rename_i e
    cases h
    exact e
  · rename_i e _
    cases h
    exact e
  · cases h

/-- LOAD_PLAN uses a slot that is EMPTY or LOADED (R106). -/
theorem ArmState.chooseSlot_usable {a : ArmState} {ch : SlotChoice} {i : SlotIx} (h : a.chooseSlot ch = .ok i) :
    a.slot i = .empty ∨ (a.slot i).isLoaded = true := by
  cases ch with
  | named j =>
    unfold ArmState.chooseSlot at h
    dsimp only at h
    cases s : a.slot j with
    | active p | finishing p =>
      rw [s] at h
      cases h
    | empty | loaded p =>
      rw [s] at h
      cases h
      simp [s, Slot.isLoaded]
  | auto =>
    unfold ArmState.chooseSlot ArmState.autoSlot at h
    dsimp only at h
    cases s : a.slot0 <;> cases t : a.slot1 <;> rw [s, t] at h <;> cases h <;> simp [ArmState.slot, s, t, Slot.isLoaded]

/-- A slot that LOAD_PLAN uses has no claim. -/
theorem Slot.accounts.usable {s : Slot} {n : Nat} (h : s.accounts n) (u : s = .empty ∨ s.isLoaded = true) : n = 0 := by
  cases s with
  | empty => exact h
  | loaded p => exact h.1
  | active p | finishing p => simp [Slot.isLoaded] at u

/-- A new plan has issued nothing (R107). -/
theorem newPlan_accounts (planId passes : Nat) (es : List PlanEntry) (active : Bool) :
    (if active then Slot.active (newPlan planId passes es) else Slot.loaded (newPlan planId passes es)).accounts 0 := by
  split
  · exact ⟨Nat.zero_lt_succ _, rfl⟩
  · exact ⟨rfl, rfl, rfl⟩

/-- The slots of an arm are in a combination with a plan put into a usable slot, LOADED only behind an ACTIVE one. -/
theorem ArmState.slotsPair.load {a : ArmState} (h : a.slotsPair) {i : SlotIx} (u : a.slot i = .empty ∨ (a.slot i).isLoaded = true)
    (p : Plan) : (a.setSlot i (if a.activePlan.isNone then .active p else .loaded p)).slotsPair := by
  obtain ⟨-, loaded, behind⟩ := (a.slotsPair_iff i).1 h
  have idle : (a.slot i).isActive = false := by
    rcases u with u | u
    · rw [u]
      rfl
    · cases s : a.slot i <;> simp_all [Slot.isLoaded, Slot.isActive]
  rw [ArmState.slotsPair_iff _ i, ArmState.slot_setSlot, ArmState.slot_setSlot_other]
  cases active : a.activePlan with
  | none =>
    have other := ArmState.activePlan_none active i.other
    rw [other]
    simp [Slot.isActive, Slot.isLoaded]
  | some jq =>
    obtain ⟨j, q⟩ := jq
    have acts : (a.slot i.other).isActive = true := by
      have running := ArmState.activePlan_some active
      have apart : j ≠ i := fun e => by rw [← e, running] at idle; cases idle
      rw [show i.other = j by cases i <;> cases j <;> simp_all [SlotIx.other], running]
      rfl
    have notLoaded : (a.slot i.other).isLoaded = false := by
      cases s : a.slot i.other <;> simp_all [Slot.isLoaded, Slot.isActive]
    rw [acts, notLoaded]
    simp [Slot.isActive, Slot.isLoaded]

theorem Guard.serveLoadPlan_accounts (g : Guard) (p : List Byte) : g.KeepsAccounts (g.serveLoadPlan p).1.guard := by
  unfold Guard.serveLoadPlan
  dsimp only
  split
  · rename_i x choice _ _
    split
    · exact .refl g
    · split
      · exact .refl g
      · split
        · exact .refl g
        · rename_i i chosen
          have usable := ArmState.chooseSlot_usable chosen
          intro h
          obtain ⟨-, accounts, pairs⟩ := id h
          refine h.onArm x ((pairs x).load usable _) (fun j => ?_) fun _ _ _ => rfl
          rw [ArmState.slot_setSlot_eq]
          split
          · rename_i e
            rw [e, (accounts x i).usable usable]
            exact newPlan_accounts _ _ _ _
          · exact accounts x j
  · exact .refl g

/-- An ACTIVE slot that stops issuing, with what it then owes. -/
theorem Guard.accountsOwing.finishSlot {g : Guard} (h : g.accountsOwing none) {x : Arm} {i : SlotIx} {p q : Plan}
    (active : (g.arm x).slot i = .active p) (why : EndReason) {owed : Option (Arm × SlotIx)}
    (beside : ∀ y j, (y, j) ≠ (x, i) → owedTo owed y j = 0)
    (own : ∀ n, (Slot.active p).accounts n → q.issued ≤ 65535 ∧ q.balances (n + owedTo owed x i)) :
    (g.onArm x fun a => a.finishSlot i q why).accountsOwing owed := by
  obtain ⟨-, accounts, pairs⟩ := id h
  refine h.onArm x ((pairs x).finishSlot active q why) (fun j => ?_) fun y j e => beside y j fun same => e (congrArg Prod.fst same).symm
  rw [ArmState.finishSlot_eq, ArmState.slot_setSlot_eq, ArmState.slot_setSlot_eq]
  by_cases e : j = i
  · subst e
    rw [if_neg j.other_ne.symm, if_pos rfl]
    exact own _ (active ▸ accounts x j)
  · have other : j = i.other := by cases i <;> cases j <;> simp_all [SlotIx.other]
    rw [if_pos other, beside x j fun same => e (congrArg Prod.snd same), other]
    exact (accounts x i.other).activated

theorem Guard.dropActive_accounts (g : Guard) (x : Arm) : g.KeepsAccounts (g.dropActive x).1.guard := by
  unfold Guard.dropActive
  split
  · exact .refl g
  · rename_i i p active
    dsimp only
    rw [Event.callEvaluation_guard]
    refine .trans (g.event.withdrawAll_accounts fun c => c.fromSlot x i) (.trans ?_ (Event.endPlans_accounts _))
    rw [Event.onGuard_guard]
    have change := g.event.withdrawAll_change fun c => c.fromSlot x i
    obtain ⟨q, running, -⟩ := change.activeSlot (ArmState.activePlan_some active)
    intro h
    rw [Guard.onArm_congr (f' := fun a => a.finishSlot i q .dropped) (by rw [running]; rfl)]
    exact h.finishSlot running .dropped (fun _ _ _ => rfl) fun n account => ⟨Nat.le_of_lt account.1, account.2⟩

theorem Guard.dropLoaded_accounts (g : Guard) (x : Arm) : g.KeepsAccounts (g.dropLoaded x).1.guard := by
  unfold Guard.dropLoaded
  split
  · exact .refl g
  · rename_i i p loaded
    have loaded := ArmState.loadedPlan_some loaded
    intro h
    obtain ⟨-, accounts, pairs⟩ := id h
    refine h.onArm x ((pairs x).setEmpty (by rw [loaded]; rfl)) (fun j => ?_) fun _ _ _ => rfl
    rw [ArmState.slot_setSlot_eq]
    split
    · rename_i e
      exact e ▸ (accounts x i).usable (.inr (by rw [loaded]; rfl))
    · exact accounts x j

theorem Guard.serveDropPlan_accounts (g : Guard) (p : List Byte) : g.KeepsAccounts (g.serveDropPlan p).1.guard := by
  unfold Guard.serveDropPlan
  split
  · exact g.dropActive_accounts _
  · exact g.dropLoaded_accounts _
  · exact .refl g

end Sys2Proof.Machine

/-! # The requests of an arm, timers and power keep the accounts; every step (O54) -/

namespace Sys2Proof.Machine

/-! ## A claim made -/

/-- A new claim takes an owed entry up (R67); a SUPERVISOR claim takes none. -/
theorem Guard.accountsOwing.newClaim {g : Guard} {x : Arm} {o : Origin} {s : Shape} {cells : CellSet} {excluded priority : Nat}
    (h : g.accountsOwing (g.newClaim x o s cells excluded priority).entrySlot) (room : g.claimCount x < 2) :
    (g.addClaim (g.newClaim x o s cells excluded priority)).accountsOwing none := by
  generalize made : g.newClaim x o s cells excluded priority = c at h ⊢
  have fresh : c.key ∉ g.keys := by
    rw [← made]
    exact Guard.claimNumber_fresh room
  obtain ⟨differ, accounts, pairs⟩ := h
  refine ⟨?_, fun y i => ?_, fun y => (pairs y).congr (fun i => ?_) fun i => ?_⟩
  · rw [Guard.keysDiffer, Guard.addClaim_keys]
    exact List.nodup_append.2 ⟨differ, List.nodup_singleton _, fun k hk l hl e => fresh (List.mem_singleton.1 hl ▸ e ▸ hk)⟩
  · have count : (g.addClaim c).slotClaims y i = g.slotClaims y i + owedTo c.entrySlot y i := by
      unfold Guard.slotClaims owedTo
      rw [Guard.addClaim_claims, ← List.countP_eq_length_filter, ← List.countP_eq_length_filter, List.countP_append,
        List.countP_singleton]
      simp only [Claim.fromSlot_iff]
    rw [Guard.addClaim_slot, count]
    exact accounts y i
  · rw [Guard.addClaim_slot]
  · rw [Guard.addClaim_slot]

theorem Guard.serveClaimFor_accounts (g : Guard) (p : List Byte) : g.KeepsAccounts (g.serveClaimFor p).1.guard := by
  unfold Guard.serveClaimFor
  dsimp only
  split
  · rename_i x s _ _
    split
    · exact .refl g
    · rename_i room
      have formed := g.event.form_change (s.cells g.cfg)
      refine .trans (g.event.form_accounts (s.cells g.cfg)) ?_
      split
      · exact .refl _
      · exact fun h => Guard.accountsOwing.newClaim h (Nat.lt_of_le_of_lt (Guard.claimCount_le formed.keys x) (by simpa using room))
  · exact .refl g

/-! ## REQUEST and SKIP -/

/-- An issue leaves its entry owed (R108). -/
theorem Event.issue_owes {ev : Event} (h : ev.guard.accountsOwing none) {x : Arm} {i : SlotIx} {p : Plan}
    (active : (ev.guard.arm x).slot i = .active p) : (ev.issue x i p).guard.accountsOwing (some (x, i)) := by
  obtain ⟨-, accounts, pairs⟩ := id h
  have account : p.issued < 65535 ∧ p.balances (ev.guard.slotClaims x i) := by
    have account := accounts x i
    rw [active] at account
    exact account
  have issued := Plan.issue_issued account.1
  have own : owedTo (some (x, i)) x i = 1 := if_pos rfl
  have beside : ∀ y j, (y, j) ≠ (x, i) → owedTo (some (x, i)) y j = 0 := fun y j e =>
    if_neg fun same => e (Option.some.inj same).symm
  rw [Event.issue_eq]
  change (ev.guard.onArm x fun a => a.issued i p).accountsOwing (some (x, i))
  cases ends : (ev.guard.arm x).issueEnds i p with
  | true =>
    have finished : (ev.guard.arm x).issued i p = (ev.guard.arm x).finishSlot i p.issue.1 .complete := by
      rw [ArmState.issued, if_pos ends, ArmState.finishSlot_eq]
    rw [Guard.onArm_congr (f' := fun a => a.finishSlot i p.issue.1 .complete) finished]
    refine h.finishSlot active .complete beside fun n account => ⟨by rw [issued]; exact account.1, ?_⟩
    rw [own]
    exact Plan.issue_balances account.1 account.2
  | false =>
    have going : (ev.guard.arm x).issued i p = (ev.guard.arm x).setSlot i (.active p.issue.1) := if_neg (by simp [ends])
    rw [Guard.onArm_congr (f' := fun a => a.setSlot i (.active p.issue.1)) going]
    refine h.onArm x ((pairs x).setActive active p.issue.1) (fun j => ?_) fun y j e => beside y j fun same => e (congrArg Prod.fst same).symm
    rw [ArmState.slot_setSlot_eq]
    split
    · rename_i e
      have below : p.issue.1.issued ≠ 65535 := fun full => by
        simp [ArmState.issueEnds, issuingEnds, full] at ends
      rw [e, own]
      exact ⟨by omega, Plan.issue_balances account.1 account.2⟩
    · rename_i e
      rw [beside x j fun same => e (congrArg Prod.snd same)]
      exact accounts x j

theorem Guard.serveSkip_accounts (g : Guard) (x : Arm) : g.KeepsAccounts (g.serveSkip x).1.guard := by
  unfold Guard.serveSkip
  split
  · exact .refl g
  · split
    · exact .refl g
    · rename_i i p active
      exact fun h => Event.tally_pays (Event.issue_owes (ev := g.event) h (ArmState.activePlan_some active)) .skipped

/-- The entry that a REQUEST issues becomes a claim, or is missed (R67, R68). -/
theorem Guard.requestEntry_accounts {g : Guard} {x : Arm} (room : g.claimCount x < 2) {i : SlotIx} {p : Plan}
    (active : (g.arm x).slot i = .active p) (e : PlanEntry) : g.KeepsAccounts (g.requestEntry x i p e).1.guard := by
  have formed := g.event.form_change (e.shape.cells g.cfg)
  obtain ⟨q, running, -⟩ := formed.activeSlot active
  unfold Guard.requestEntry
  dsimp only
  refine .trans (g.event.form_accounts (e.shape.cells g.cfg)) ?_
  rw [running]
  dsimp only [Slot.plan?]
  intro h
  have owes := Event.issue_owes h running
  split
  · exact Event.tally_pays owes .missed
  · refine Guard.accountsOwing.newClaim owes (Nat.lt_of_le_of_lt (Guard.claimCount_le ?_ x) room)
    rw [Event.issue_eq, Guard.keys, Guard.onArm_claims]
    exact formed.keys

theorem Guard.serveRequest_accounts (g : Guard) (x : Arm) : g.KeepsAccounts (g.serveRequest x).1.guard := by
  unfold Guard.serveRequest
  split
  · exact .refl g
  · split
    · exact .refl g
    · split
      · exact .refl g
      · rename_i i p active
        split
        · exact .refl g
        · rename_i room
          split
          · exact .refl g
          · exact Guard.requestEntry_accounts (by simpa using room) (ArmState.activePlan_some active) _

/-! ## The other requests -/

theorem Guard.serveRevoke_accounts (g : Guard) (p : List Byte) : g.KeepsAccounts (g.serveRevoke p).1.guard := by
  unfold Guard.serveRevoke
  split
  · exact .refl g
  · rename_i x _
    refine .trans (g.event.endClaims_accounts (g.keysWhere fun c => c.arm = x)) ?_
    dsimp only
    rw [Event.callEvaluation_guard]
    split
    · exact .trans (Event.raise_sameAccounts _ x .revoked).keeps (Event.settleLevel_accounts _ x)
    · exact .refl _

theorem Guard.serveClearFaults_accounts (g : Guard) (p : List Byte) : g.KeepsAccounts (g.serveClearFaults p).1.guard := by
  unfold Guard.serveClearFaults
  split
  · exact .refl g
  · refine .trans (Event.foldl_accounts (fun ev src => ?_) _ g.event) (Event.settleLevel_accounts _ _)
    rw [Event.lower_guard]
    exact (Guard.SameAccounts.beside _ _ fun _ i => by cases i <;> rfl).keeps

theorem Guard.serveGetRow_accounts (g : Guard) (p : List Byte) : g.KeepsAccounts (g.serveGetRow p).1.guard := by
  unfold Guard.serveGetRow
  dsimp only
  split
  · exact .refl g
  · exact g.event.readCells_accounts _ _

theorem Guard.serveSetCounters_accounts (g : Guard) (p : List Byte) : g.KeepsAccounts (g.serveSetCounters p).1.guard := by
  unfold Guard.serveSetCounters
  split
  · exact .refl g
  · split
    · exact .refl g
    · exact (Guard.SameAccounts.beside g _ fun _ i => by cases i <;> rfl).keeps

theorem Guard.setEntered_sameAccounts (g : Guard) (x : Arm) : g.SameAccounts (g.setEntered x) := by
  refine .mapped _ rfl (g.setEntered_arm x) fun c => ?_
  split <;> rfl

theorem Event.acceptSample_accounts (ev : Event) (x : Arm) (s : Sample) :
    ev.guard.KeepsAccounts (ev.acceptSample x s).guard := by
  have heard : ev.guard.KeepsAccounts (ev.heard x s).guard := by
    rw [Event.heard_guard]
    exact (Guard.SameAccounts.beside _ x fun _ i => by cases i <;> rfl).keeps
  have watched : (ev.heard x s).guard.KeepsAccounts (ev.watched x s).1.guard := (ev.heard x s).readCells_accounts _ _
  have monitored : (ev.watched x s).1.guard.KeepsAccounts (ev.monitored x s).guard := by
    rw [Event.monitored_guard]
    exact (Guard.SameAccounts.beside _ x fun _ i => by cases i <;> rfl).keeps
  have leveled : (ev.monitored x s).guard.KeepsAccounts (ev.leveled x s).guard :=
    .trans (Event.settleLevel_accounts _ x) (Guard.setEntered_sameAccounts _ x).keeps
  exact .trans (.trans (heard.trans watched) (monitored.trans leveled))
    (.trans (Event.handOver_accounts _ x _) (Event.evaluateIfCalled_accounts _))

theorem Guard.serveSample_accounts (g : Guard) (x : Arm) (p : List Byte) : g.KeepsAccounts (g.serveSample x p).1.guard := by
  unfold Guard.serveSample
  split
  · exact .refl g
  · exact g.event.acceptSample_accounts x _

theorem Guard.serveRelease_accounts (g : Guard) (x : Arm) (p : List Byte) :
    g.KeepsAccounts (g.serveRelease x p).1.guard := by
  unfold Guard.serveRelease
  dsimp only
  split
  · exact .refl g
  · split
    · exact .refl g
    · exact g.event.endHeld_accounts _ _

theorem Guard.discardSample_accounts (g : Guard) (x : Arm) (p : List Byte) :
    g.KeepsAccounts (g.discardSample x p).1.guard :=
  (Guard.SameAccounts.beside g x fun _ i => by cases i <;> rfl).keeps

/-! ## Timers, scrub and power -/

theorem Guard.gapExpiry_accounts (g : Guard) (x : Arm) : g.KeepsAccounts (g.gapExpiry x).guard := by
  rw [Guard.gapExpiry_eq]
  refine .trans ?_ (Event.settleLevel_accounts _ x)
  rw [Guard.gapLatched_guard]
  exact (Guard.SameAccounts.trans (.beside g x fun _ i => by cases i <;> rfl) (.beside _ x fun _ i => by cases i <;> rfl)).keeps

/-- An escalation timer that expires, ESCALATED latched or not. -/
theorem Guard.escalated_accounts (g : Guard) (x : Arm) (f : ActionUnit → ActionUnit) (e : Escalation) :
    let ev := g.quietEvent.onGuard fun g => g.onUnit x f
    g.KeepsAccounts ev.guard ∧ g.KeepsAccounts ((ev.escalate x e).settleLevel x).guard := by
  have stopped := (g.onUnit_sameAccounts x f).keeps
  refine ⟨stopped, .trans (stopped.trans ?_) (Event.settleLevel_accounts _ x)⟩
  exact (Guard.onUnit_sameAccounts _ x _).keeps

theorem Guard.slowExpiry_accounts (g : Guard) (x : Arm) : g.KeepsAccounts (g.slowExpiry x).guard := by
  have expired := g.escalated_accounts x (fun u => { u with slowTimer := none }) .hold
  unfold Guard.slowExpiry
  dsimp only
  split
  · exact expired.2
  · exact expired.1

theorem Guard.holdExpiry_accounts (g : Guard) (x : Arm) : g.KeepsAccounts (g.holdExpiry x).guard := by
  have expired := g.escalated_accounts x (fun u => { u with holdTimer := none }) .halt
  unfold Guard.holdExpiry
  dsimp only
  split
  · exact expired.2
  · exact expired.1

theorem Guard.agingExpiry_accounts (g : Guard) (k : ClaimKey) : g.KeepsAccounts (g.agingExpiry k).guard :=
  (g.onClaim_sameAccounts k (f := fun c => c.aged g) fun _ => rfl).keeps

theorem Guard.visit_accounts (g : Guard) : g.KeepsAccounts g.visit.guard := by
  refine .trans (g.quietEvent.readCell_accounts .scrub (g.scrubCell g.scrub.pos)) ?_
  refine (Guard.SameAccounts.of_arms (h := Guard.advanceScrub _) ?_ fun x => Guard.advanceScrub_arm _ x).keeps
  unfold Guard.advanceScrub
  dsimp only
  split <;> rfl

theorem Guard.waitStep_sameAccounts (g : Guard) (x : Arm) : g.SameAccounts (g.waitStep x) := by
  unfold Guard.waitStep
  split
  · exact .refl g
  · exact .trans (.trans (g.signal_sameAccounts x _ 1) (Guard.signal_sameAccounts _ x _ 1))
      (.beside _ x fun _ i => by cases i <;> rfl)

theorem Guard.restraintStep_sameAccounts (g : Guard) (x : Arm) : g.SameAccounts (g.restraintStep x) := by
  unfold Guard.restraintStep
  split
  · exact .refl g
  · exact g.signal_sameAccounts x _ 1

theorem Guard.tick_accounts (g : Guard) : g.KeepsAccounts g.tick := by
  have later : ∀ (k : Guard) (n : Nat), k.SameAccounts { k with now := n } := fun k n => .of_arms rfl fun x => by cases x <;> rfl
  unfold Guard.tick
  dsimp only
  split
  · exact (later g _).keeps
  · have a := (g.restraintStep_sameAccounts .A).trans (Guard.waitStep_sameAccounts _ .A)
    have b := (a.trans (Guard.restraintStep_sameAccounts _ .B)).trans (Guard.waitStep_sameAccounts _ .B)
    exact (b.trans (later _ _)).keeps

theorem Guard.followLines_sameAccounts (g : Guard) (x : Arm) : g.SameAccounts (g.followLines x) := by
  unfold Guard.followLines
  exact g.onUnit_sameAccounts x _

theorem Guard.cutLines_sameAccounts (g : Guard) : g.SameAccounts g.cutLines :=
  .trans (h := { g with linesCut := true }) (.of_arms rfl fun x => by cases x <;> rfl)
    ((Guard.followLines_sameAccounts _ .A).trans (Guard.followLines_sameAccounts _ .B))

theorem Guard.leaveInit_sameAccounts (g : Guard) : g.SameAccounts g.leaveInit := by
  have entered : g.SameAccounts { g with
      mode := .setup, linesCut := !g.permitSupply, leakTimer := g.timerFor (msSteps g.cfg.tLeak) } :=
    .of_arms rfl fun x => by cases x <;> rfl
  unfold Guard.leaveInit Guard.levelsFromSources
  exact ((entered.trans (Guard.changeLevel_sameAccounts _ .A _)).trans (Guard.changeLevel_sameAccounts _ .B _)).trans
    (.of_arms (Guard.restartScrub_claims _) (Guard.restartScrub_arms _))

theorem Guard.endInit_accounts (g : Guard) : g.KeepsAccounts g.endInit.guard :=
  .trans (g.quietEvent.rewriteAll_accounts .init storeCells) (Guard.leaveInit_sameAccounts _).keeps

/-! ## Every step -/

theorem Guard.serve_accounts (g : Guard) (l : Link) (kind : Byte) (p : List Byte) :
    g.KeepsAccounts (g.serve l kind p).1.guard :=
  Guard.serve_cases (Q := fun ev => g.KeepsAccounts ev.guard) g l kind p (.refl g) (g.serveConfigure_accounts p)
    g.serveStart_accounts g.serveStop_accounts g.serveRestart_accounts (g.serveFence_accounts p)
    (g.serveUnfence_accounts p) (g.serveLoadPlan_accounts p) (g.serveDropPlan_accounts p) (g.serveClaimFor_accounts p)
    (g.serveRevoke_accounts p) (g.serveClearFaults_accounts p) (g.event.readCells_accounts .report g.cfg.gridCells)
    (g.serveGetRow_accounts p) (g.serveSetCounters_accounts p)

theorem Guard.serveArm_accounts (g : Guard) (x : Arm) (kind : Byte) (p : List Byte) :
    g.KeepsAccounts (g.serveArm x kind p).1.guard :=
  Guard.serveArm_cases (Q := fun ev => g.KeepsAccounts ev.guard) g x kind p (.refl g) (g.discardSample_accounts x p)
    (g.serveSample_accounts x p) (g.serveRequest_accounts x) (g.serveSkip_accounts x) (g.serveRelease_accounts x p)

theorem Guard.accounts_kept : Guard.Kept fun g => g.accountsOwing none where
  powerOn _ _ := Guard.accountsOwing_nothing rfl fun x i => by cases x <;> cases i <;> rfl
  permitLoss g := (g.cutLines_sameAccounts.trans (.of_arms (h := { g.cutLines with permitSupply := false }) rfl
    fun x => by cases x <;> rfl)).keeps
  logicLoss g := (g.cutLines_sameAccounts.trans (.of_arms (h := { g.cutLines with powered := false }) rfl
    fun x => by cases x <;> rfl)).keeps
  shorted g x line overheats := (g.onUnit_sameAccounts x _).keeps
  initEnd g _ := g.endInit_accounts.trans (Event.finish_accounts _)
  serve g l kind p := (g.serve_accounts l kind p).trans (Event.finish_accounts _)
  serveArm g x kind p _ := (g.serveArm_accounts x kind p).trans (Event.finish_accounts _)
  gapExpiry g x _ := (g.gapExpiry_accounts x).trans (Event.finish_accounts _)
  agingExpiry g _ c _ _ := (g.agingExpiry_accounts c.key).trans (Event.finish_accounts _)
  timeoutExpiry g _ c found _ := (Event.bounce_accounts (ev := g.quietEvent) (Guard.claim?_some found).1 .timeout).trans
    (Event.finish_accounts _)
  slowExpiry g x _ := (g.slowExpiry_accounts x).trans (Event.finish_accounts _)
  holdExpiry g x _ := (g.holdExpiry_accounts x).trans (Event.finish_accounts _)
  leak g := (Guard.SameAccounts.of_arms (g := g) (h := g.leak) rfl fun x => by cases x <;> rfl).keeps
  visit g _ := g.visit_accounts.trans (Event.finish_accounts _)
  tick g := g.tick_accounts

/-- Settles O54: an issued entry is a claim or has its outcome by the end of its event, and a claim that leaves the table
gets one. -/
theorem planAccountsBalance : Obligations.PlanAccountsBalance := by
  intro s t h e
  rw [Guard.plansInOrder_iff] at h ⊢
  exact Guard.accounts_kept.step e h

end Sys2Proof.Machine

/-! # SKIP (O33) -/

namespace Sys2Proof.Machine

/-! ## Which issues end a plan (R108 to R110) -/

section
variable {a : ArmState} {i : SlotIx} {q : Plan}

/-- The issue that brings the count to 65535 ends the plan anywhere in a pass. -/
theorem ArmState.issueEnds_full (full : 65535 ≤ q.issued + 1) : a.issueEnds i q = true ∧ q.issue.1.cursor = 0 := by
  have issued : min 65535 (q.issued + 1) = 65535 := Nat.min_eq_left full
  rw [ArmState.issueEnds_eq, Plan.issue_cursor]
  simp [issued]

/-- In the middle of a pass the plan goes on at the next entry. -/
theorem ArmState.issueEnds_middle (below : q.issued + 1 < 65535) (middle : q.cursor + 1 < q.entries.length) :
    a.issueEnds i q = false ∧ q.issue.1.cursor = q.cursor + 1 := by
  have issued : min 65535 (q.issued + 1) ≠ 65535 := by omega
  have last : ¬q.entries.length ≤ q.cursor + 1 := Nat.not_le_of_lt middle
  rw [ArmState.issueEnds_eq, Plan.issue_cursor]
  simp [issued, last]

/-- At the end of a pass it goes on at the first entry, unless a finite plan has made its passes or another plan is LOADED
behind an open-ended one. -/
theorem ArmState.issueEnds_passEnd (below : q.issued + 1 < 65535) (last : q.entries.length ≤ q.cursor + 1) :
    a.issueEnds i q = (if q.passes = 0 then (a.slot i.other).isLoaded else
      decide (q.passes ≤ min 65535 (q.passesCompleted + 1))) ∧ q.issue.1.cursor = 0 := by
  have issued : min 65535 (q.issued + 1) ≠ 65535 := by omega
  rw [ArmState.issueEnds_eq, Plan.issue_cursor]
  simp [issued, last]

end

/-! ## An entry issued and skipped -/

/-- The issued plan of an entry that was skipped. -/
theorem Plan.issue_skipped (q : Plan) : q.issue.1.tally .skipped = { q with
    issued := min 65535 (q.issued + 1)
    passesCompleted :=
      if decide (q.entries.length ≤ q.cursor + 1) then min 65535 (q.passesCompleted + 1) else q.passesCompleted
    cursor := q.issue.1.cursor
    skipped := min 65535 (q.skipped + 1) } := by
  rw [Plan.issue_eq, ← sat16_eq (q.skipped + 1)]
  rfl

/-- The guard with an arm changed, and a skip counted. -/
def Guard.skipCounted (g : Guard) (x : Arm) (f : ArmState → ArmState) : Guard :=
  (g.onArm x f).onArm x fun a => a.signalled .skips 1

/-- The event of a SKIP: its entry issued, and skipped. -/
def Guard.skipping (g : Guard) (x : Arm) (i : SlotIx) (q : Plan) : Event := (g.event.issue x i q).tally x i .skipped

section
variable (g : Guard) (x : Arm) (i : SlotIx) (q : Plan)

theorem Guard.skipping_eq : g.skipping x i q = { g.event with
    guard := g.skipCounted x fun a => (a.issued i q).onPlan i (Plan.tally .skipped)
    judged := if (g.arm x).issueEnds i q then [(x, i)] else [] } := by
  rw [Guard.skipping, Event.tally_eq, Event.issue_eq]
  unfold Guard.skipCounted
  rw [← Guard.onArm_onArm g x (fun a => a.issued i q) fun a => a.onPlan i (Plan.tally .skipped)]
  rfl

/-- A plan that goes on is not judged. -/
theorem Guard.skipping_going (going : (g.arm x).issueEnds i q = false) : (g.skipping x i q).finish =
    { g.event with
      guard := g.skipCounted x fun a => a.setSlot i (.active (q.issue.1.tally .skipped))
      replied := true } := by
  have slots : g.skipCounted x (fun a => (a.issued i q).onPlan i (Plan.tally .skipped)) =
      g.skipCounted x fun a => a.setSlot i (.active (q.issue.1.tally .skipped)) := by
    refine congrArg (fun h : Guard => h.onArm x fun a => a.signalled .skips 1) (Guard.onArm_congr ?_)
    rw [ArmState.issued, if_neg (by simp [going]), ArmState.onPlan_setSlot]
    rfl
  rw [Guard.skipping_eq, going, slots]
  exact Event.finish_quiet rfl rfl rfl rfl

/-- The end of an event with one FINISHING slot to judge and nothing else to follow. -/
theorem Event.finish_judging {ev : Event} {x : Arm} {i : SlotIx} {p : Plan} (evaluate : ev.evaluate = false)
    (reached : ev.reached = []) (planLeft : ev.planLeft = false) (judged : ev.judged = [(x, i)])
    (finishing : (ev.guard.arm x).slot i = .finishing p) : ev.finish =
      if ev.guard.slotHasClaim x i then { ev.afterReply with judged := [] }
      else { ev.afterReply with
        judged := []
        guard := ev.guard.onArm x fun a => a.setSlot i .empty
        out := ev.out ++ ev.late ++ planEnds (p.ended x i) } := by
  have ends := Event.endPlan_finishing x i (ev := { ev.afterReply with judged := [] }) finishing
  unfold Event.finish Event.evaluateIfCalled
  rw [if_neg (by simp [evaluate]), Event.dealWithSections_none 8 (ev := ev.afterReply) reached,
    Event.endPlans_one (ev := ev.afterReply) judged, Event.endDraining_kept, ends]
  · rfl
  · rw [ends]
    split <;> exact planLeft

/-- A plan that ends is judged, and ends at once where it has no claim. -/
theorem Guard.skipping_ending (ending : (g.arm x).issueEnds i q = true) :
    let p := { q.issue.1.tally .skipped with endReason := some .complete }
    (g.skipping x i q).finish.guard = g.skipCounted x (fun a =>
      (a.setSlot i (if g.slotHasClaim x i then .finishing p else .empty)).setSlot i.other (a.slot i.other).activated) ∧
    (g.skipping x i q).finish.out = if g.slotHasClaim x i then [] else planEnds (p.ended x i) := by
  intro p
  have slots : g.skipCounted x (fun a => (a.issued i q).onPlan i (Plan.tally .skipped)) =
      g.skipCounted x fun a => (a.setSlot i (.finishing p)).setSlot i.other (a.slot i.other).activated := by
    refine congrArg (fun h : Guard => h.onArm x fun a => a.signalled .skips 1) (Guard.onArm_congr ?_)
    rw [ArmState.issued, if_pos ending, ArmState.onPlan_setSlot_both]
    rfl
  have event := g.skipping_eq x i q
  rw [ending, if_pos rfl, slots] at event
  have finishing : ((g.skipping x i q).guard.arm x).slot i = .finishing p := by
    rw [event]
    dsimp only
    rw [Guard.skipCounted, Guard.arm_onArm, Guard.arm_onArm, ArmState.signalled_slot, ArmState.slot_setSlot_eq,
      if_neg i.other_ne.symm, ArmState.slot_setSlot]
  have claims : (g.skipping x i q).guard.slotHasClaim x i = g.slotHasClaim x i := by
    rw [event]
    unfold Guard.slotHasClaim Guard.skipCounted
    rw [Guard.onArm_claims, Guard.onArm_claims]
  rw [Event.finish_judging (by rw [event]; rfl) (by rw [event]; rfl) (by rw [event]; rfl) (by rw [event]) finishing, claims, event]
  cases g.slotHasClaim x i with
  | true => exact ⟨rfl, rfl⟩
  | false =>
    refine ⟨?_, rfl⟩
    change (g.skipCounted x _).onArm x (fun a => a.setSlot i .empty) = _
    rw [Guard.skipCounted, Guard.skipCounted, Guard.onArm_onArm, Guard.onArm_onArm, Guard.onArm_onArm]
    refine Guard.onArm_congr ?_
    rw [ArmState.signalled_setSlot, ArmState.setSlot_both]
    rfl

end

/-! ## The request -/

theorem Guard.serveArm_skip {g : Guard} (mode : g.mode ≠ .init) (x : Arm) : g.serveArm x 0x22#8 [] = g.serveSkip x := by
  change (if g.mode = .init then _ else if _ then _ else _) = _
  rw [if_neg mode, if_neg (by simp)]

theorem Guard.serveSkip_noPlan {g : Guard} {x : Arm} (mode : g.mode = .guarding) (none : (g.arm x).activePlan = none) :
    g.serveSkip x = g.answer (.refuse .noPlan) := by
  unfold Guard.serveSkip
  rw [if_neg (not_not.2 mode), none]

theorem Guard.serveSkip_entry {g : Guard} {x : Arm} {i : SlotIx} {q : Plan} (mode : g.mode = .guarding)
    (active : (g.arm x).activePlan = some (i, q)) :
    g.serveSkip x = (g.skipping x i q, .ok (le16 q.planId ++ [byte q.cursor])) := by
  unfold Guard.serveSkip
  rw [if_neg (not_not.2 mode), active]
  rfl

/-- Settles O33: the entry is issued and skipped, and its plan goes on or ends by the row it stands in. -/
theorem skipIssuesEntry : Obligations.SkipIssuesEntry := by
  unfold Obligations.SkipIssuesEntry
  intro s x tag serves result a
  have arrives := Guard.serveArm_skip serves.1.2 x
  refine ⟨fun mode => State.arm_answered serves.1.1 serves.2 tag rfl (arrives.trans (if_pos mode)),
    fun mode => ⟨fun none => State.arm_answered serves.1.1 serves.2 tag rfl (arrives.trans (Guard.serveSkip_noPlan mode none)),
      fun i q active => ?_⟩⟩
  intro replied counts issued last passes moved stays finished ends
  have served := State.arm_served serves tag rfl (arrives.trans (Guard.serveSkip_entry mode active))
  have skipped : ∀ c, q.issue.1.cursor = c → q.issue.1.tally .skipped = moved c := by
    rintro c rfl
    exact q.issue_skipped
  have goes : ∀ c, a.issueEnds i q = false ∧ q.issue.1.cursor = c → stays c := by
    rintro c ⟨going, cursor⟩
    have event := s.guard.skipping_going x i q going
    rw [skipped c cursor] at event
    exact served.trans (congrArg Host.Outcome.next
      (State.conclude_eq (congrArg Event.guard event) (congrArg Event.out event)))
  have comes : a.issueEnds i q = true ∧ q.issue.1.cursor = 0 → ends := by
    rintro ⟨ending, cursor⟩
    obtain ⟨guard, out⟩ := s.guard.skipping_ending x i q ending
    rw [skipped 0 cursor] at guard out
    exact served.trans (congrArg Host.Outcome.next (State.conclude_eq guard out))
  refine ⟨fun full => comes (ArmState.issueEnds_full full), fun below =>
    ⟨fun middle => goes _ (ArmState.issueEnds_middle below middle), fun atEnd => ?_⟩⟩
  have passed : passes = min 65535 (q.passesCompleted + 1) := if_pos (decide_eq_true atEnd)
  obtain ⟨issueEnds, cursor⟩ := ArmState.issueEnds_passEnd (a := a) (i := i) below atEnd
  rw [passed]
  refine ⟨fun finite more => goes 0 ⟨?_, cursor⟩, fun finite done => comes ⟨?_, cursor⟩,
    fun endless loaded => comes ⟨?_, cursor⟩, fun endless none => goes 0 ⟨?_, cursor⟩⟩
  · rw [issueEnds, if_neg finite, decide_eq_false (Nat.not_le_of_lt more)]
  · rw [issueEnds, if_neg finite, decide_eq_true done]
  · rw [issueEnds, if_pos endless, loaded]
  · rw [issueEnds, if_pos endless, none]

end Sys2Proof.Machine

/-! # LOAD_PLAN (O19) -/

namespace Sys2Proof.Machine

/-! ## The entries that a payload carries (R106) -/

/-- The pick point that 12 bytes of an entry carry, when the high bit of the priority byte says that they do. -/
def carriedPick (e : List Byte) : Option (Int × Int) := if u8 e 1 / 128 = 1 then some (s16 e 8, s16 e 10) else none

theorem parsePlanEntry_eq (e : List Byte) : parsePlanEntry e =
    (parseShape (u8 e 0) (e.drop 2)).map fun sh => ⟨sh, u8 e 1 % 16, carriedPick e⟩ := by
  have flag : ((e.getD 1 0#8).getLsbD 7 = true) ↔ u8 e 1 / 128 = 1 := by
    have lt := u8_lt e 1
    change (u8 e 1).testBit 7 = true ↔ _
    rw [Nat.testBit_eq_decide_div_mod_eq, decide_eq_true_iff]
    omega
  unfold parsePlanEntry carriedPick
  simp only [flag]

/-- A cell that a shape selects is in one of its rows. -/
theorem Shape.hasRow_of_has {s : Shape} {c r : Nat} (h : s.has c r = true) : s.hasRow r = true := by
  cases s with
  | rect | strip =>
    simp only [Shape.has, Bool.and_eq_true, decide_eq_true_eq] at h
    simp [Shape.hasRow, h]
  | quad =>
    simp only [Shape.has, Bool.and_eq_true, Bool.or_eq_true, decide_eq_true_eq] at h
    simp only [Shape.hasRow, Bool.or_eq_true, decide_eq_true_eq]
    tauto

/-- R106 test 2 by the cells of the shape. -/
theorem PlanEntry.valid_iff {e : PlanEntry} {cfg : ConfigSet} : e.valid cfg = true ↔
    e.shape.valid cfg.nc cfg.nr = true ∧
      ∀ x y, e.pick = some (x, y) → ∃ k, cfg.cellAt x y = some k ∧ k ∈ e.shape.cells cfg := by
  unfold PlanEntry.valid
  rw [Bool.and_eq_true]
  refine and_congr_right fun _ => ?_
  cases e.pick with
  | none => simp
  | some xy =>
    obtain ⟨x, y⟩ := xy
    dsimp only
    cases found : cfg.cellAt x y with
    | none =>
      simp only [Bool.false_eq_true, false_iff, not_forall]
      refine ⟨x, y, rfl, fun ⟨k, h, _⟩ => ?_⟩
      rw [found] at h
      cases h
    | some k =>
      obtain ⟨-, -, col, row⟩ := ConfigSet.cellAt_eq_some.1 found
      constructor
      · intro has x' y' same
        cases same
        exact ⟨k, found, Shape.mem_cells.2 ⟨row, Shape.hasRow_of_has has, col, has⟩⟩
      · intro h
        obtain ⟨l, same, cell⟩ := h x y rfl
        rw [found] at same
        cases same
        exact (Shape.mem_cells.1 cell).2.2.2

/-- An entry is carried and passes test 2. -/
def carriesValid (cfg : ConfigSet) (e : List Byte) : Prop :=
  ∃ sh, parseShape (u8 e 0) (e.drop 2) = some sh ∧ sh.valid cfg.nc cfg.nr = true ∧
    ∀ x y, carriedPick e = some (x, y) → ∃ k, cfg.cellAt x y = some k ∧ k ∈ sh.cells cfg

theorem carriesValid_iff {cfg : ConfigSet} {e : List Byte} :
    carriesValid cfg e ↔ ∃ d, parsePlanEntry e = some d ∧ d.valid cfg = true := by
  rw [parsePlanEntry_eq]
  constructor
  · rintro ⟨sh, shape, valid⟩
    exact ⟨_, by rw [shape]; rfl, PlanEntry.valid_iff.2 valid⟩
  · rintro ⟨d, parsed, valid⟩
    obtain ⟨sh, shape, rfl⟩ := Option.map_eq_some_iff.1 parsed
    exact ⟨sh, shape, PlanEntry.valid_iff.1 valid⟩

/-- The bytes of the entry at an index. -/
def entryBytes (p : List Byte) (i : Nat) : List Byte := p.drop (5 + planEntryLength * i)

section
variable {cfg : ConfigSet} {p : List Byte} {n : Nat}

/-- The test stops at the first entry that is not valid. -/
theorem parsePlanEntries_first {i : Nat} (lt : i < n) (bad : ¬carriesValid cfg (entryBytes p i))
    (before : ∀ j < i, carriesValid cfg (entryBytes p j)) : parsePlanEntries cfg p n 0 = .error i := by
  cases parsed : parsePlanEntries cfg p n 0 with
  | ok es =>
    obtain ⟨d, -, entry, valid⟩ := (parsePlanEntries_ok parsed).2 i lt
    rw [Nat.zero_add] at entry
    exact absurd (carriesValid_iff.2 ⟨d, entry, valid⟩) bad
  | error k =>
    obtain ⟨-, -, invalid, valid⟩ := parsePlanEntries_error parsed
    rcases Nat.lt_trichotomy i k with earlier | rfl | later
    · exact absurd (carriesValid_iff.2 (valid i (Nat.zero_le i) earlier)) bad
    · rfl
    · obtain ⟨d, entry, valid⟩ := carriesValid_iff.1 (before k later)
      rw [invalid d entry] at valid
      cases valid

theorem parsePlanEntries_all (all : ∀ i < n, carriesValid cfg (entryBytes p i)) :
    ∃ es, parsePlanEntries cfg p n 0 = .ok es := by
  cases parsed : parsePlanEntries cfg p n 0 with
  | ok es => exact ⟨es, rfl⟩
  | error k =>
    obtain ⟨-, lt, invalid, -⟩ := parsePlanEntries_error parsed
    rw [Nat.zero_add] at lt
    obtain ⟨d, entry, valid⟩ := carriesValid_iff.1 (all k lt)
    rw [invalid d entry] at valid
    cases valid

variable {es : List PlanEntry} (parsed : parsePlanEntries cfg p n 0 = .ok es)
include parsed

theorem parsePlanEntries_getElem? {i : Nat} (lt : i < n) : es[i]? = parsePlanEntry (entryBytes p i) := by
  obtain ⟨d, at_, entry, -⟩ := (parsePlanEntries_ok parsed).2 i lt
  rw [Nat.zero_add] at entry
  exact at_.trans entry.symm

theorem parsePlanEntries_filterMap : es = (List.range n).filterMap fun i => parsePlanEntry (entryBytes p i) := by
  have each : es.map some = (List.range n).map fun i => parsePlanEntry (entryBytes p i) := by
    refine List.ext_getElem? fun i => ?_
    rw [List.getElem?_map, List.getElem?_map]
    by_cases lt : i < n
    · obtain ⟨d, at_, -⟩ := (parsePlanEntries_ok parsed).2 i lt
      rw [List.getElem?_range lt, Option.map_some, ← parsePlanEntries_getElem? parsed lt, at_]
      rfl
    · rw [List.getElem?_eq_none (by rw [(parsePlanEntries_ok parsed).1]; omega), List.getElem?_eq_none (by simpa using lt)]
      rfl
  calc es = (es.map some).filterMap id := by simp [List.filterMap_map]
    _ = (List.range n).filterMap fun i => parsePlanEntry (entryBytes p i) := by rw [each, List.filterMap_map]; rfl

/-- The entries stored, a priority above 7 as 7. -/
theorem parsePlanEntries_stored : es.map PlanEntry.stored = (List.range n).filterMap fun i =>
    (parseShape (u8 (entryBytes p i) 0) ((entryBytes p i).drop 2)).map fun sh =>
      ⟨sh, min 7 (u8 (entryBytes p i) 1 % 16), carriedPick (entryBytes p i)⟩ := by
  rw [parsePlanEntries_filterMap parsed, List.map_filterMap]
  refine List.filterMap_congr fun i _ => ?_
  rw [parsePlanEntry_eq, Option.map_map]
  rfl

/-- The mask of the entries whose priority is above 7. -/
theorem parsePlanEntries_clamped : clampedEntries es =
    ((List.range n).map fun i => if 7 < u8 (entryBytes p i) 1 % 16 then 2 ^ i else 0).sum := by
  rw [clampedEntries_eq_sum, (parsePlanEntries_ok parsed).1]
  refine congrArg List.sum (List.map_congr_left fun i hi => ?_)
  obtain ⟨d, at_, entry, -⟩ := (parsePlanEntries_ok parsed).2 i (List.mem_range.1 hi)
  rw [Nat.zero_add, parsePlanEntry_eq] at entry
  obtain ⟨sh, -, rfl⟩ := Option.map_eq_some_iff.1 entry
  rw [at_]
  simp only [flagBit, decide_eq_true_eq]
  rfl

end

/-! ## The slot (R105, R106) -/

theorem ArmState.activePlan_isNone (a : ArmState) : a.activePlan.isNone = !(a.slot0.isActive || a.slot1.isActive) := by
  unfold ArmState.activePlan
  cases a.slot0 <;> cases a.slot1 <;> rfl

section
variable {a : ArmState}

theorem ArmState.chooseSlot_named {i : SlotIx} (usable : a.slot i = .empty ∨ (a.slot i).isLoaded = true) :
    a.chooseSlot (.named i) = .ok i := by
  unfold ArmState.chooseSlot
  dsimp only
  cases s : a.slot i with
  | empty | loaded p => rfl
  | active p | finishing p =>
    rw [s] at usable
    simp [Slot.isLoaded] at usable

theorem ArmState.chooseSlot_active {i : SlotIx} (active : (a.slot i).isActive = true) :
    a.chooseSlot (.named i) = .error .slotActive := by
  unfold ArmState.chooseSlot
  dsimp only
  cases s : a.slot i with
  | active p => rfl
  | empty | loaded p | finishing p =>
    rw [s] at active
    cases active

theorem ArmState.chooseSlot_finishing {i : SlotIx} {q : Plan} (finishing : a.slot i = .finishing q) :
    a.chooseSlot (.named i) = .error .slotFinishing := by
  unfold ArmState.chooseSlot
  dsimp only
  rw [finishing]

theorem ArmState.chooseSlot_auto {i : SlotIx} (h : a.autoSlot = some i) : a.chooseSlot .auto = .ok i := by
  unfold ArmState.chooseSlot
  dsimp only
  rw [h]

theorem ArmState.autoSlot_empty0 (empty : a.slot0 = .empty) : a.autoSlot = some .slot0 := by
  unfold ArmState.autoSlot
  rw [empty]

theorem ArmState.autoSlot_empty1 (full : a.slot0 ≠ .empty) (empty : a.slot1 = .empty) : a.autoSlot = some .slot1 := by
  unfold ArmState.autoSlot
  rw [empty]
  cases s : a.slot0 with
  | empty => exact absurd s full
  | loaded p | active p | finishing p => rfl

theorem ArmState.autoSlot_loaded0 (loaded : a.slot0.isLoaded = true) (full : a.slot1 ≠ .empty) :
    a.autoSlot = some .slot0 := by
  unfold ArmState.autoSlot
  cases s : a.slot0 with
  | loaded p =>
    cases t : a.slot1 with
    | empty => exact absurd t full
    | loaded q | active q | finishing q => rfl
  | empty | active p | finishing p =>
    simp [s, Slot.isLoaded] at loaded

theorem ArmState.autoSlot_loaded1 (idle : ¬(a.slot0 = .empty ∨ a.slot0.isLoaded = true)) (loaded : a.slot1.isLoaded = true) :
    a.autoSlot = some .slot1 := by
  unfold ArmState.autoSlot
  cases t : a.slot1 with
  | loaded q =>
    cases s : a.slot0 with
    | empty => exact absurd (.inl s) idle
    | loaded p => exact absurd (.inr (by rw [s]; rfl)) idle
    | active p | finishing p => rfl
  | empty | active q | finishing q =>
    simp [t, Slot.isLoaded] at loaded

theorem ArmState.chooseSlot_none (idle0 : ¬(a.slot0 = .empty ∨ a.slot0.isLoaded = true))
    (idle1 : ¬(a.slot1 = .empty ∨ a.slot1.isLoaded = true)) : a.chooseSlot .auto = .error .slotFinishing := by
  unfold ArmState.chooseSlot ArmState.autoSlot
  cases s : a.slot0 with
  | empty => exact absurd (.inl s) idle0
  | loaded p => exact absurd (.inr (by rw [s]; rfl)) idle0
  | active p | finishing p =>
    cases t : a.slot1 with
    | empty => exact absurd (.inl t) idle1
    | loaded q => exact absurd (.inr (by rw [t]; rfl)) idle1
    | active q | finishing q => rfl

end

/-! ## The request -/

section
variable {g : Guard} {p : List Byte}

/-- Test 1 of R106. -/
theorem Guard.serveLoadPlan_range (h : armOf (u8 p 0 % 16) = none ∨ slotChoiceOf (u8 p 0 / 16) = none ∨ u8 p 4 = 0 ∨ 16 < u8 p 4) :
    g.serveLoadPlan p = g.answer (.refuse .range) := by
  unfold Guard.serveLoadPlan
  dsimp only
  split
  · rename_i x choice arm named
    rw [arm, named] at h
    exact if_pos ((h.resolve_left (Option.some_ne_none _)).resolve_left (Option.some_ne_none _))
  · rfl

variable {x : Arm} {ch : SlotChoice} (arm : armOf (u8 p 0 % 16) = some x) (choice : slotChoiceOf (u8 p 0 / 16) = some ch)
  (low : 1 ≤ u8 p 4) (high : u8 p 4 ≤ 16)
include arm choice low high

/-- Test 2 of R106. -/
theorem Guard.serveLoadPlan_entry {i : Nat} (parsed : parsePlanEntries g.cfg p (u8 p 4) 0 = .error i) :
    g.serveLoadPlan p = g.answer (.refuseWith .range i) := by
  unfold Guard.serveLoadPlan
  rw [arm, choice]
  dsimp only
  rw [if_neg (by omega), parsed]

variable {es : List PlanEntry} (parsed : parsePlanEntries g.cfg p (u8 p 4) 0 = .ok es)
include parsed

/-- Test 3 of R106. -/
theorem Guard.serveLoadPlan_slot {r : Result} (chosen : (g.arm x).chooseSlot ch = .error r) :
    g.serveLoadPlan p = g.answer (.refuse r) := by
  unfold Guard.serveLoadPlan
  rw [arm, choice]
  dsimp only
  rw [if_neg (by omega), parsed]
  dsimp only
  rw [chosen]

/-- A plan that passes the tests (R107). -/
theorem Guard.serveLoadPlan_filled {i : SlotIx} (chosen : (g.arm x).chooseSlot ch = .ok i) :
    let behind := (g.arm x).slot0.isActive || (g.arm x).slot1.isActive
    let plan := newPlan (u16 p 1) (u8 p 3) (es.map PlanEntry.stored)
    g.serveLoadPlan p = ((g.onArm x fun a => a.setSlot i (if behind then .loaded plan else .active plan)).event,
      .ok ([byte i.code, byte (flagBit (!behind) 0 + flagBit ((g.arm x).slot i).isLoaded 1)] ++
        le16 (clampedEntries es))) := by
  unfold Guard.serveLoadPlan
  rw [arm, choice]
  dsimp only
  rw [if_neg (by omega), parsed]
  dsimp only
  rw [chosen]
  dsimp only
  rw [ArmState.activePlan_isNone]
  cases (g.arm x).slot0.isActive || (g.arm x).slot1.isActive <;> rfl

end

/-- Settles O19: the three tests in their order, then the plan in the slot that the third chooses. -/
theorem loadPlanFillsSlot : Obligations.LoadPlanFillsSlot := by
  unfold Obligations.LoadPlanFillsSlot
  intro s tag p serves length result arm choice refused
  have arrives := Guard.serve_loadPlan s.link serves.1.2 length
  refine ⟨fun bad => State.supervisor_answered serves tag rfl (arrives.trans (Guard.serveLoadPlan_range bad)), ?_⟩
  intro x ch hx hch low high bytes shape priority pick valid
  refine ⟨fun i lt bad before => State.supervisor_answered serves tag rfl
    (arrives.trans (Guard.serveLoadPlan_entry hx hch low high (parsePlanEntries_first lt bad before))), ?_⟩
  intro all a indices entries clamped plan behind goesTo usable
  obtain ⟨es, parsed⟩ := parsePlanEntries_all (p := p) all
  have refuses : ∀ r, a.chooseSlot ch = .error r → refused r := fun r chosen =>
    State.supervisor_answered serves tag rfl (arrives.trans (Guard.serveLoadPlan_slot hx hch low high parsed chosen))
  have goes : ∀ i, a.chooseSlot ch = .ok i → goesTo i := by
    intro i chosen
    have filled := Guard.serveLoadPlan_filled hx hch low high parsed chosen
    rw [parsePlanEntries_stored parsed, parsePlanEntries_clamped parsed] at filled
    exact State.supervisor_quiet serves tag rfl (arrives.trans filled)
  refine ⟨?_, ?_⟩
  · rintro i rfl
    exact ⟨fun ready => goes i (ArmState.chooseSlot_named ready),
      fun active => refuses _ (ArmState.chooseSlot_active active),
      fun q finishing => refuses _ (ArmState.chooseSlot_finishing finishing)⟩
  · rintro rfl
    exact ⟨fun empty => goes _ (ArmState.chooseSlot_auto (ArmState.autoSlot_empty0 empty)),
      fun full empty => goes _ (ArmState.chooseSlot_auto (ArmState.autoSlot_empty1 full empty)),
      fun loaded full => goes _ (ArmState.chooseSlot_auto (ArmState.autoSlot_loaded0 loaded full)),
      fun idle loaded => goes _ (ArmState.chooseSlot_auto (ArmState.autoSlot_loaded1 idle loaded)),
      fun idle0 idle1 => refuses _ (ArmState.chooseSlot_none idle0 idle1)⟩

end Sys2Proof.Machine

/-! # DROP_PLAN (O20) -/

namespace Sys2Proof.Machine

/-! ## The claims that a withdrawal leaves -/

/-- Withdrawals by name: the claims of other names stay with their marks. -/
theorem Event.withdrawNamed_marks (ks : List ClaimKey) (ev : Event) :
    (ev.forClaims ks Event.withdraw).guard.marks = ev.guard.marks.filter fun m => m.key ∉ ks := by
  induction ks generalizing ev with
  | nil => exact (List.filter_eq_self.2 fun _ _ => by simp).symm
  | cons k ks ih =>
    have step : (match ev.guard.claim? k with
        | some c => ev.withdraw c
        | none => ev).guard.marks = ev.guard.marks.filter fun m => m.key ≠ k := by
      cases found : ev.guard.claim? k with
      | none =>
        refine (List.filter_eq_self.2 fun m hm => ?_).symm
        obtain ⟨c, hc, rfl⟩ := List.mem_map.1 hm
        exact decide_eq_true (Guard.claim?_none found c hc)
      | some c =>
        obtain ⟨-, rfl⟩ := Guard.claim?_some found
        have left : (ev.withdraw c).guard.marks = (ev.guard.removeClaim c.key).marks := by
          unfold Guard.marks
          rw [Event.withdraw, Event.leaveWaiting_claims]
          unfold Guard.succeed
          split
          · exact map_mark_map _ fun d => by split <;> rfl
          · rfl
        exact left.trans (List.filter_map (f := Claim.mark) (p := fun m => decide (m.key ≠ c.key)) (l := ev.guard.claims)).symm
    refine (ih _).trans ((congrArg (List.filter fun m => decide (m.key ∉ ks)) step).trans ?_)
    rw [List.filter_filter]
    refine List.filter_congr fun m _ => ?_
    simp only [List.mem_cons, not_or, Bool.decide_and]
    exact Bool.and_comm _ _

theorem Guard.keysDiffer.mem_keysWhere {g : Guard} (hk : g.keysDiffer) {c : Claim} (hc : c ∈ g.claims) (p : Claim → Bool) :
    c.key ∈ g.keysWhere p ↔ p c = true := by
  rw [Guard.mem_keysWhere]
  exact ⟨fun ⟨d, hd, pd, same⟩ => hk.eq hd hc same ▸ pd, fun h => ⟨c, hc, h, rfl⟩⟩

section
variable {ev : Event} (hk : ev.guard.keysDiffer) (p : Claim → Bool)
include hk

/-- A claim held stays, with its mark. -/
theorem Event.withdrawAll_spares {c : Claim} (hc : c ∈ ev.guard.claims) (held : c.phase = .held) :
    ∃ d ∈ (ev.withdrawAll p).guard.claims, d.mark = c.mark := by
  have stays : c.mark ∈ (ev.withdrawAll p).guard.marks := by
    unfold Event.withdrawAll
    rw [Event.withdrawNamed_marks]
    refine List.mem_filter.2 ⟨List.mem_map_of_mem hc, decide_eq_true fun named => ?_⟩
    have waits := (hk.mem_keysWhere hc _).1 named
    rw [Claim.isWaiting, held] at waits
    cases waits
  exact List.mem_map.1 stays

/-- A claim left was there before with its mark, and was not one to withdraw. -/
theorem Event.withdrawAll_left {d : Claim} (hd : d ∈ (ev.withdrawAll p).guard.claims) :
    ∃ c ∈ ev.guard.claims, d.mark = c.mark ∧ (c.isWaiting && p c) = false := by
  have kept : d.mark ∈ (ev.withdrawAll p).guard.marks := List.mem_map_of_mem hd
  unfold Event.withdrawAll at kept
  rw [Event.withdrawNamed_marks] at kept
  obtain ⟨was, unnamed⟩ := List.mem_filter.1 kept
  obtain ⟨c, hc, same⟩ := List.mem_map.1 was
  rw [← same] at unnamed
  exact ⟨c, hc, same.symm, Bool.eq_false_iff.2 fun h => of_decide_eq_true unnamed ((hk.mem_keysWhere hc _).2 h)⟩

end

/-- A mark tells which slot a claim is from. -/
theorem Claim.fromSlot_congr {c d : Claim} (h : d.mark = c.mark) (x : Arm) (i : SlotIx) :
    d.fromSlot x i = c.fromSlot x i := by
  have arm : d.arm = c.arm := congrArg (ClaimKey.arm ∘ ClaimMark.key) h
  have origin : d.origin = c.origin := congrArg ClaimMark.origin h
  unfold Claim.fromSlot
  rw [arm, origin]

theorem Claim.keeps.fromSlot {c d : Claim} (h : c.keeps d) (x : Arm) (i : SlotIx) : d.fromSlot x i = c.fromSlot x i := by
  have arm : d.arm = c.arm := congrArg ClaimKey.arm h.key
  obtain ⟨-, origin, -⟩ := h
  unfold Claim.fromSlot
  rw [arm, origin]

section
variable {ev : Event} (hk : ev.guard.keysDiffer) (x : Arm) (i : SlotIx)
include hk

/-- Of the slot's claims those held are left. -/
theorem Event.withdrawSlot_held {d : Claim} (hd : d ∈ (ev.withdrawAll fun c => c.fromSlot x i).guard.claims)
    (slot : d.fromSlot x i = true) : d.phase = .held := by
  obtain ⟨c, -, mark, spared⟩ := Event.withdrawAll_left hk _ hd
  have held : d.isHeld = c.isHeld := congrArg ClaimMark.held mark
  rw [← Claim.fromSlot_congr mark, slot, Bool.and_true] at spared
  rw [← Claim.isHeld_iff, held, Claim.isHeld_iff]
  exact Classical.byContradiction fun ne => by simp [Claim.isWaiting, Claim.waiting_of_not_held ne] at spared

/-- The slot keeps a claim when it had one held. -/
theorem Event.withdrawSlot_slotHasClaim : (ev.withdrawAll fun c => c.fromSlot x i).guard.slotHasClaim x i =
    ev.guard.claims.any fun c => c.isHeld && c.fromSlot x i := by
  change ((ev.withdrawAll fun c => c.fromSlot x i).guard.claims.any fun c => c.fromSlot x i) = _
  rw [Bool.eq_iff_iff, List.any_eq_true, List.any_eq_true]
  constructor
  · rintro ⟨d, hd, slot⟩
    obtain ⟨c, hc, mark, -⟩ := Event.withdrawAll_left hk _ hd
    have held : d.isHeld = c.isHeld := congrArg ClaimMark.held mark
    refine ⟨c, hc, ?_⟩
    rw [← held, Claim.isHeld_iff.2 (Event.withdrawSlot_held hk x i hd slot), ← Claim.fromSlot_congr mark, slot]
    rfl
  · rintro ⟨c, hc, h⟩
    obtain ⟨held, slot⟩ := Bool.and_eq_true_iff.1 h
    obtain ⟨d, hd, mark⟩ := Event.withdrawAll_spares hk (fun c => c.fromSlot x i) hc (Claim.isHeld_iff.1 held)
    exact ⟨d, hd, (Claim.fromSlot_congr mark x i).trans slot⟩

end

/-! ## The tallies and the judgement of a slot whose claims are withdrawn -/

/-- A plan with some more entries missed. -/
def Plan.missing (q : Plan) (n : Nat) : Plan := (Plan.tally .missed)^[n] q

theorem Plan.missing_succ (q : Plan) (n : Nat) : q.missing (n + 1) = (q.tally .missed).missing n := rfl

theorem Plan.missing_eq {q : Plan} (h : q.missed ≤ 65535) (n : Nat) :
    q.missing n = { q with missed := min 65535 (q.missed + n) } := by
  induction n generalizing q with
  | zero =>
    rw [Nat.add_zero, Nat.min_eq_right h]
    rfl
  | succ n ih =>
    have tallied : q.tally .missed = { q with missed := min 65535 (q.missed + 1) } := by
      rw [← sat16_eq]
      rfl
    rw [Plan.missing_succ, tallied, ih (Nat.min_le_left _ _)]
    dsimp only
    congr 1
    omega

theorem Plan.missing_course (q : Plan) (n : Nat) : q.sameCourse (q.missing n) := by
  induction n generalizing q with
  | zero => exact q.sameCourse_refl
  | succ n ih => exact Plan.sameCourse_trans (q := q.tally .missed) ⟨rfl, rfl, rfl, rfl, rfl, rfl, rfl⟩ (ih _)

/-- What the withdrawal of `n` claims of a slot does to its plan and to the judgements to come. -/
structure Event.SlotMisses (x : Arm) (i : SlotIx) (n : Nat) (ev ev' : Event) : Prop where
  slot : ∀ q, (ev.guard.arm x).slot i = .active q → (ev'.guard.arm x).slot i = .active (q.missing n)
  judged : ev'.judged = ev.judged ++ List.replicate n (x, i)

/-- One claim of the slot withdrawn. -/
theorem Event.withdraw_misses (ev : Event) {c : Claim} {x : Arm} {i : SlotIx} (h : c.fromSlot x i = true) :
    ev.SlotMisses x i 1 (ev.withdraw c) := by
  have parts := h
  unfold Claim.fromSlot at parts
  rw [Bool.and_eq_true, decide_eq_true_iff] at parts
  obtain ⟨rfl, inSlot⟩ := parts
  cases origin : c.origin with
  | supervisor =>
    rw [origin] at inSlot
    cases inSlot
  | plan j n =>
    rw [origin] at inSlot
    obtain rfl : j = i := of_decide_eq_true inSlot
    refine ⟨fun q active => ?_, ?_⟩
    · rw [Event.withdraw, Event.leaveWaiting_slot ev _ origin, active]
      rfl
    · unfold Event.withdraw Event.leaveWaiting
      rw [Event.settleEntry_eq]
      dsimp only [Event.callEvaluation]
      rw [Claim.judges, origin]
      rfl

/-- Claims of the slot withdrawn, each in the table under its name. -/
theorem Event.withdrawEach_misses {x : Arm} {i : SlotIx} (cs : List Claim) {ev : Event} (hk : ev.guard.keysDiffer)
    (nodup : (cs.map Claim.key).Nodup)
    (named : ∀ c ∈ cs, ∃ d ∈ ev.guard.claims, d.key = c.key ∧ d.fromSlot x i = true) :
    ev.SlotMisses x i cs.length (ev.forClaims (cs.map Claim.key) Event.withdraw) := by
  induction cs generalizing ev with
  | nil => exact ⟨fun q active => active, (List.append_nil _).symm⟩
  | cons c cs ih =>
    obtain ⟨fresh, nodup⟩ := List.nodup_cons.1 nodup
    obtain ⟨d, hd, key, slot⟩ := named c List.mem_cons_self
    have step : ev.forClaims ((c :: cs).map Claim.key) Event.withdraw =
        (ev.withdraw d).forClaims (cs.map Claim.key) Event.withdraw := by
      unfold Event.forClaims
      rw [List.map_cons, List.foldl_cons, ← key, hk.claim? hd]
    have rest : ∀ b ∈ cs, ∃ e ∈ (ev.withdraw d).guard.claims, e.key = b.key ∧ e.fromSlot x i = true := by
      intro b hb
      obtain ⟨e, he, ekey, eslot⟩ := named b (List.mem_cons_of_mem _ hb)
      have ne : e.key ≠ d.key := fun h => fresh (by rw [← key, ← h, ekey]; exact List.mem_map_of_mem hb)
      obtain ⟨f, hf, stays⟩ := ev.leaveWaiting_stays (b := d) (.withdrawn d.number d.origin) he ne
      exact ⟨f, hf, stays.keeps.key.trans ekey, (stays.keeps.fromSlot x i).trans eslot⟩
    have first := ev.withdraw_misses slot
    have others := ih ((ev.withdraw_change d).keysDiffer hk) nodup rest
    rw [step]
    refine ⟨fun q active => others.slot _ (first.slot q active), ?_⟩
    rw [others.judged, first.judged, List.append_assoc]
    rfl

theorem Event.withdrawSlot_misses {ev : Event} (hk : ev.guard.keysDiffer) (x : Arm) (i : SlotIx) :
    ev.SlotMisses x i (ev.guard.claims.filter fun c => c.isWaiting && c.fromSlot x i).length
      (ev.withdrawAll fun c => c.fromSlot x i) := by
  refine Event.withdrawEach_misses _ hk (hk.sublist (List.Sublist.map _ List.filter_sublist)) fun c hc => ?_
  obtain ⟨mem, h⟩ := List.mem_filter.1 hc
  exact ⟨c, mem, rfl, (Bool.and_eq_true_iff.1 h).2⟩

theorem keepLast_replicate {α : Type} [DecidableEq α] (a : α) (n : Nat) : keepLast (a :: List.replicate n a) = [a] := by
  induction n with
  | zero => rfl
  | succ n ih =>
    unfold keepLast
    rw [if_pos (by simp [List.replicate_succ])]
    exact ih

/-! ## The ACTIVE slot dropped (R114) -/

/-- An arm whose slot has come to another content, with a LOADED slot beside it made ACTIVE. -/
def ArmState.dropped (a : ArmState) (i : SlotIx) (s : Slot) : ArmState :=
  (a.setSlot i s).setSlot i.other (a.slot i.other).activated

theorem ArmState.dropped_slot (a : ArmState) (i : SlotIx) (s : Slot) : (a.dropped i s).slot i = s := by
  cases i <;> rfl

theorem ArmState.dropped_other (a : ArmState) (i : SlotIx) (s : Slot) :
    (a.dropped i s).slot i.other = (a.slot i.other).activated := by
  cases i <;> rfl

/-- The ACTIVE slot of the arm made FINISHING as DROPPED and set down to be judged. -/
def Event.dropSlot (ev : Event) (x : Arm) (i : SlotIx) : Event :=
  { ev with
    guard := ev.guard.onArm x fun a =>
      match (a.slot i).plan? with
      | some q => a.finishSlot i q .dropped
      | none => a
    judged := (x, i) :: ev.judged }

/-- A plan that was dropped. -/
def Plan.dropped (q : Plan) : Plan := { q with endReason := some .dropped }

/-- The slot keeps its dropped plan while it has a claim; without one it is EMPTY, with PLAN_END posted. -/
theorem Event.dropSlot_endPlans {ev : Event} {x : Arm} {i : SlotIx} {q : Plan} {n : Nat}
    (active : (ev.guard.arm x).slot i = .active q) (judged : ev.judged = List.replicate n (x, i)) :
    (ev.dropSlot x i).endPlans =
      { ev with
        guard := ev.guard.onArm x fun a =>
          a.dropped i (if ev.guard.slotHasClaim x i then .finishing q.dropped else .empty)
        out := ev.out ++ if ev.guard.slotHasClaim x i then [] else planEnds (q.dropped.ended x i)
        judged := [] } := by
  have finished : ev.dropSlot x i = { ev with
      guard := ev.guard.onArm x fun a => a.dropped i (.finishing q.dropped), judged := (x, i) :: ev.judged } := by
    refine congrArg (fun g => { ev with guard := g, judged := (x, i) :: ev.judged }) (Guard.onArm_congr ?_)
    rw [active]
    exact ArmState.finishSlot_eq _ _ _ _
  have slot : ((ev.guard.onArm x fun a => a.dropped i (.finishing q.dropped)).arm x).slot i = .finishing q.dropped := by
    rw [Guard.arm_onArm, ArmState.dropped_slot]
  have claim : (ev.guard.onArm x fun a => a.dropped i (.finishing q.dropped)).slotHasClaim x i =
      ev.guard.slotHasClaim x i := by
    unfold Guard.slotHasClaim
    rw [Guard.onArm_claims]
  unfold Event.endPlans
  rw [finished, judged, keepLast_replicate, List.foldl_cons, List.foldl_nil, Event.endPlan_finishing x i slot]
  dsimp only
  rw [claim]
  cases ev.guard.slotHasClaim x i with
  | true => simp
  | false => simp [Guard.onArm_onArm, ArmState.dropped, ArmState.setSlot_both]

section
variable (g : Guard) (x : Arm) (i : SlotIx) (q : Plan)

/-- The claims that a dropped slot loses. -/
def Guard.leaving : List Claim := g.claims.filter fun c => c.isWaiting && c.fromSlot x i

/-- Whether no claim of the slot is held. -/
def Guard.emptied : Bool := !(g.claims.any fun c => c.isHeld && c.fromSlot x i)

/-- The plan of the dropped slot, each claim that it loses a missed entry. -/
def Guard.droppedPlan : Plan := (q.missing (g.leaving x i).length).dropped

/-- The event of a slot dropped: its waiting claims withdrawn, then its end judged. -/
def Guard.slotDropped : Event :=
  let ev := g.event.withdrawAll fun c => c.fromSlot x i
  { ev with
    guard := ev.guard.onArm x fun a => a.dropped i (if g.emptied x i then .empty else .finishing (g.droppedPlan x i q))
    out := withdrawals (g.leaving x i) ++ if g.emptied x i then planEnds ((g.droppedPlan x i q).ended x i) else []
    judged := []
    evaluate := true }

end

section
variable {g : Guard} {x : Arm} {i : SlotIx} {q : Plan} (active : (g.arm x).activePlan = some (i, q)) (hk : g.keysDiffer)
include active

theorem Guard.dropActive_some : g.dropActive x =
    let ev := ((g.event.withdrawAll fun c => c.fromSlot x i).dropSlot x i).endPlans
    (ev.callEvaluation true, .ok (le16 q.planId ++ [byte (g.leaving x i).length,
      byte (flagBit ((ev.guard.arm x).slot i = .empty) 0 + flagBit ((g.arm x).slot i.other).isLoaded 1)])) := by
  have count : (g.keysWhere fun c => c.isWaiting && c.fromSlot x i).length = (g.leaving x i).length := List.length_map _
  unfold Guard.dropActive
  rw [active, ← count]
  rfl

include hk

theorem Guard.dropActive_eq : g.dropActive x = (g.slotDropped x i q,
    .ok (le16 q.planId ++ [byte (g.leaving x i).length,
      byte (flagBit (g.emptied x i) 0 + flagBit ((g.arm x).slot i.other).isLoaded 1)])) := by
  have misses := Event.withdrawSlot_misses (ev := g.event) hk x i
  have out : (g.event.withdrawAll fun c => c.fromSlot x i).out = withdrawals (g.leaving x i) :=
    (Event.withdrawAll_each (ev := g.event) hk fun c => c.fromSlot x i).1
  have claim : (g.event.withdrawAll fun c => c.fromSlot x i).guard.slotHasClaim x i = !g.emptied x i :=
    (Event.withdrawSlot_slotHasClaim (ev := g.event) hk x i).trans (Bool.not_not _).symm
  have ended := Event.dropSlot_endPlans (misses.slot q (ArmState.activePlan_some active)) misses.judged
  rw [claim, out] at ended
  rw [Guard.dropActive_some active, ended]
  dsimp only
  rw [Guard.arm_onArm, ArmState.dropped_slot]
  unfold Guard.slotDropped
  cases g.emptied x i with
  | true => simp [Event.callEvaluation, Guard.droppedPlan, Guard.leaving]
  | false => simp [Event.callEvaluation, Guard.droppedPlan, Guard.leaving]

end

/-! ## The event of a slot dropped and its end -/

/-- With no claim waiting and no plan judged, out of DRAINING, nothing more is posted. -/
theorem Event.finish_unjudged {ev : Event} (held : ∀ d ∈ ev.guard.claims, d.phase = .held) (reached : ev.reached = [])
    (judged : ev.judged = []) (mode : ev.guard.mode ≠ .draining) : ev.finish.out = ev.out ++ ev.late := by
  have kept : ∀ e : Event, e.guard.mode ≠ .draining → e.endDraining = e := fun _ out => if_neg fun h => out h.1
  obtain ⟨called, reformed, e⟩ := Event.finish_unwaited held reached
  rw [e, Event.endPlans_none (ev := ({ ev with evaluate := called, reformed := reformed } : Event).afterReply) judged,
    kept ({ ev with evaluate := called, reformed := reformed } : Event).afterReply mode]
  rfl

section
variable {g : Guard} {x : Arm} {i : SlotIx} {q : Plan}

theorem Guard.slotDropped_arm : (g.slotDropped x i q).guard.arm x =
    ((g.event.withdrawAll fun c => c.fromSlot x i).guard.arm x).dropped i
      (if g.emptied x i then .empty else .finishing (g.droppedPlan x i q)) := Guard.arm_onArm _ _ _

theorem Guard.slotDropped_slot : ((g.slotDropped x i q).guard.arm x).slot i =
    if g.emptied x i then .empty else .finishing (g.droppedPlan x i q) := by
  rw [Guard.slotDropped_arm, ArmState.dropped_slot]

theorem Guard.slotDropped_claims :
    (g.slotDropped x i q).guard.claims = (g.event.withdrawAll fun c => c.fromSlot x i).guard.claims :=
  Guard.onArm_claims _ _ _

/-- A slot LOADED beside the one dropped is ACTIVE. -/
theorem Guard.slotDropped_other {r : Plan} (loaded : (g.arm x).slot i.other = .loaded r) :
    ∃ r', ((g.slotDropped x i q).guard.arm x).slot i.other = .active r' ∧ r.sameCourse r' := by
  have follows := (((g.event.withdrawAll_change fun c => c.fromSlot x i).armKeeps x).slot i.other)
  rw [Guard.event_guard, loaded] at follows
  rw [Guard.slotDropped_arm, ArmState.dropped_other]
  cases slot : ((g.event.withdrawAll fun c => c.fromSlot x i).guard.arm x).slot i.other with
  | loaded r' =>
    rw [slot] at follows
    exact ⟨r', rfl, follows⟩
  | empty | active r' | finishing r' =>
    rw [slot] at follows
    cases follows

/-- But for the arm, the guard has changed as the withdrawals change it. -/
theorem Guard.slotDropped_followedBy :
    (g.onArm x fun _ => (g.slotDropped x i q).guard.arm x).followedBy (g.slotDropped x i q).guard := by
  have withdrawn := (g.event.withdrawAll_change fun c => c.fromSlot x i).followedBy
  rw [Guard.slotDropped_arm]
  exact withdrawn.onArm (ArmState.keeps_refl _)

theorem Guard.slotDropped_armOther : (g.arm x.other).keeps ((g.slotDropped x i q).guard.arm x.other) := by
  have kept : (g.slotDropped x i q).guard.arm x.other = (g.event.withdrawAll fun c => c.fromSlot x i).guard.arm x.other :=
    Guard.arm_onArm_other _ _ _
  rw [kept]
  exact (g.event.withdrawAll_change fun c => c.fromSlot x i).armKeeps x.other

/-- The end of the event: the dropped slot keeps its course until it is EMPTY. -/
theorem Guard.slotDropped_ends : ((g.slotDropped x i q).finish.guard.arm x).slot i = .empty ∨
    ∃ r, ((g.slotDropped x i q).finish.guard.arm x).slot i = .finishing r ∧ g.emptied x i = false ∧
      q.dropped.sameCourse r := by
  have follows := ((g.slotDropped x i q).finish_change.armKeeps x).slot i
  rw [Guard.slotDropped_slot] at follows
  cases emptied : g.emptied x i with
  | true =>
    rw [emptied, if_pos rfl] at follows
    cases slot : ((g.slotDropped x i q).finish.guard.arm x).slot i with
    | empty => exact .inl rfl
    | loaded r | active r | finishing r =>
      rw [slot] at follows
      cases follows
  | false =>
    rw [emptied, if_neg Bool.false_ne_true] at follows
    cases slot : ((g.slotDropped x i q).finish.guard.arm x).slot i with
    | empty => exact .inl rfl
    | finishing r =>
      rw [slot] at follows
      obtain ⟨planId, passes, entries, cursor, completed, issued, -⟩ := q.missing_course (g.leaving x i).length
      have course : q.dropped.sameCourse (g.droppedPlan x i q) :=
        ⟨planId, passes, entries, cursor, completed, issued, rfl⟩
      exact .inr ⟨r, rfl, rfl, Plan.sameCourse_trans course follows⟩
    | loaded r | active r =>
      rw [slot] at follows
      cases follows

theorem Guard.slotDropped_activates {r : Plan} (loaded : (g.arm x).slot i.other = .loaded r) :
    ∃ r', ((g.slotDropped x i q).finish.guard.arm x).slot i.other = .active r' ∧ r.sameCourse r' := by
  obtain ⟨r', active, course⟩ := Guard.slotDropped_other (q := q) loaded
  obtain ⟨r'', running, further⟩ := (g.slotDropped x i q).finish_change.activeSlot active
  exact ⟨r'', running, Plan.sameCourse_trans course further⟩

theorem Guard.slotDropped_rest : { g with
      a := (g.slotDropped x i q).finish.guard.a
      b := (g.slotDropped x i q).finish.guard.b }.followedBy (g.slotDropped x i q).finish.guard := by
  have rest := (Guard.followedBy_trans (Guard.slotDropped_followedBy (g := g) (x := x) (i := i) (q := q))
    (g.slotDropped x i q).finish_change.followedBy).withArms
  cases x <;> exact rest

section
variable (hk : g.keysDiffer)
include hk

theorem Guard.slotDropped_held {d : Claim} (hd : d ∈ (g.slotDropped x i q).finish.guard.claims)
    (slot : d.fromSlot x i = true) : d.phase = .held := by
  obtain ⟨c, hc, keeps⟩ := (g.slotDropped x i q).finish_change.claim d hd
  rw [Guard.slotDropped_claims] at hc
  exact keeps.held (Event.withdrawSlot_held (ev := g.event) hk x i hc (keeps.fromSlot x i ▸ slot))

/-- With no other claim waiting and out of DRAINING, nothing is posted after the slot's own notices. -/
theorem Guard.slotDropped_out (alone : ∀ c ∈ g.claims, c.phase = .waiting → c.fromSlot x i = true)
    (mode : g.mode ≠ .draining) : (g.slotDropped x i q).finish.out =
      withdrawals (g.leaving x i) ++ if g.emptied x i then planEnds ((g.droppedPlan x i q).ended x i) else [] := by
  have still := g.event.withdrawAll_still fun c => c.fromSlot x i
  have held : ∀ d ∈ (g.slotDropped x i q).guard.claims, d.phase = .held :=
    Guard.slotDropped_claims (g := g) (q := q) ▸ Event.withdrawAll_held (ev := g.event) hk _ alone
  have undrained : (g.slotDropped x i q).guard.mode ≠ .draining := by
    rcases (g.event.withdrawAll_change fun c => c.fromSlot x i).mode with same | ⟨draining, -⟩
    · exact ((Guard.onArm_mode _ _ _).trans same).symm ▸ mode
    · exact absurd draining mode
  rw [Event.finish_unjudged held still.reached rfl undrained]
  exact (congrArg _ still.late).trans (List.append_nil _)

end

end

/-! ## The requests -/

section
variable {g : Guard} {p : List Byte}

theorem Guard.serveDropPlan_range (h : armOf (u8 p 0) = none ∨ 1 < u8 p 1) :
    g.serveDropPlan p = g.answer (.refuse .range) := by
  unfold Guard.serveDropPlan
  rcases h with none | high
  · rw [none]
  · split
    · omega
    · omega
    · rfl

variable {x : Arm} (arm : armOf (u8 p 0) = some x)
include arm

theorem Guard.serveDropPlan_active (named : u8 p 1 = 0) : g.serveDropPlan p = g.dropActive x := by
  unfold Guard.serveDropPlan
  rw [arm, named]
  rfl

theorem Guard.serveDropPlan_loaded (named : u8 p 1 = 1) : g.serveDropPlan p = g.dropLoaded x := by
  unfold Guard.serveDropPlan
  rw [arm, named]
  rfl

end

theorem Guard.dropActive_none {g : Guard} {x : Arm} (h : (g.arm x).activePlan = none) :
    g.dropActive x = g.answer (.refuse .notFound) := by
  unfold Guard.dropActive
  rw [h]

theorem Guard.dropLoaded_none {g : Guard} {x : Arm} (h : (g.arm x).loadedPlan = none) :
    g.dropLoaded x = g.answer (.refuse .notFound) := by
  unfold Guard.dropLoaded
  rw [h]

theorem Guard.dropLoaded_some {g : Guard} {x : Arm} {i : SlotIx} {q : Plan} (h : (g.arm x).loadedPlan = some (i, q)) :
    g.dropLoaded x = ((g.onArm x fun a => a.setSlot i .empty).event, .ok (le16 q.planId ++ [0#8, 1#8])) := by
  unfold Guard.dropLoaded
  rw [h]

/-- Settles O20: the request naming LOADED, the refusals, and the ACTIVE slot dropped by what its event comes to. -/
theorem dropPlanActsOnSlot : Obligations.DropPlanActsOnSlot := by
  unfold Obligations.DropPlanActsOnSlot
  constructor
  · intro s tag armByte serves
    have arrives := Guard.serve_dropPlan s.link serves.1.2 (p := [armByte, 1#8]) rfl
    have named : ∀ x, armOf armByte.toNat = some x → s.guard.serveDropPlan [armByte, 1#8] = s.guard.dropLoaded x :=
      fun x arm => Guard.serveDropPlan_loaded (p := [armByte, 1#8]) arm rfl
    exact ⟨fun none => State.supervisor_answered serves tag rfl
        (arrives.trans (Guard.serveDropPlan_range (p := [armByte, 1#8]) (.inl none))),
      fun x arm none => State.supervisor_answered serves tag rfl
        (arrives.trans ((named x arm).trans (Guard.dropLoaded_none none))),
      fun x i q arm loaded => State.supervisor_quiet serves tag rfl
        (arrives.trans ((named x arm).trans (Guard.dropLoaded_some loaded)))⟩
  · intro s tag p serves length
    have arrives := Guard.serve_dropPlan s.link serves.1.2 (decide_eq_true length)
    refine ⟨fun bad => State.supervisor_answered serves tag rfl (arrives.trans (Guard.serveDropPlan_range bad)),
      fun x arm named none => State.supervisor_answered serves tag rfl
        (arrives.trans ((Guard.serveDropPlan_active arm named).trans (Guard.dropActive_none none))), ?_⟩
    intro x i q arm named active differ leaving emptied activated reply
    have served := State.supervisor_served serves tag rfl
      (arrives.trans ((Guard.serveDropPlan_active arm named).trans (Guard.dropActive_eq active differ)))
    have ends := Guard.slotDropped_ends (g := s.guard) (x := x) (i := i) (q := q)
    refine ⟨_, served, ⟨_, rfl⟩, fun empty => ?_, ?_, fun r => Guard.slotDropped_activates,
      fun c => Guard.slotDropped_held differ,
      ArmState.keeps_trans Guard.slotDropped_armOther ((s.guard.slotDropped x i q).finish_change.armKeeps x.other),
      Guard.slotDropped_rest, fun alone mode missed => ?_⟩
    · exact ends.resolve_right fun ⟨_, _, held, _⟩ => Bool.noConfusion (held.symm.trans empty)
    · refine ends.imp_right fun ⟨r, finishing, _, course⟩ => ?_
      obtain ⟨planId, -, -, cursor, completed, issued, reason⟩ := course
      exact ⟨r, finishing, reason, planId, cursor, completed, issued⟩
    · have posted := Guard.slotDropped_out (q := q) differ alone mode
      rw [Guard.droppedPlan, Plan.missing_eq missed] at posted
      exact congrArg (Link.deliver _) posted

end Sys2Proof.Machine
